-- ==== Sys2Proof/Word.lean ====
section
/-! DEFINITION. The byte, the one unit of every stream, register and bus access of the driver (spec/00_scope.md R10,
spec/20_memory.md R53). -/

namespace Sys2Proof

/-- A byte: the only access size of the bus (R53), the unit of the command stream and of the response stream. -/
abbrev Byte := BitVec 8

end Sys2Proof
end

