-- ==== Sys2Proof/Syntax.lean ====
section
/-! DEFINITION. The 36 commands of spec/30_encoding.md R71 (spec/opcode_table.json), one constructor each, with the
operands R71 lists and in its order. An operand is a natural number of any size, as at the abstract command level of
R6 and R73: indices are checked and values masked by the command's meaning, never by the syntax. -/

namespace Sys2Proof

/-- One operator's eleven bytes of a patch record, as the caller gives them, unmasked (R76). -/
structure PatchOp where
  detune : Nat
  multiply : Nat
  totalLevel : Nat
  rateScale : Nat
  attackRate : Nat
  amEnable : Nat
  decay1Rate : Nat
  decay2Rate : Nat
  sustainLevel : Nat
  releaseRate : Nat
  ssgEg : Nat
  deriving DecidableEq, Repr

/-- A patch record: "an immutable template: algorithm, feedback, pan/AMS/PMS byte, and 4 operator parameter sets"
(R32, R76), unmasked. -/
structure Patch where
  algorithm : Nat
  feedback : Nat
  pan : Nat
  op0 : PatchOp
  op1 : PatchOp
  op2 : PatchOp
  op3 : PatchOp
  deriving DecidableEq, Repr

/-- The commands of FMDRV version 1 (R2, R71). -/
inductive Instr where
  /-- 0x10 WRITE (R101) -/
  | write (port reg val : Nat)
  /-- 0x11 BUSYQ (R105) -/
  | busyq
  /-- 0x20 REGOFS (R120) -/
  | regofs (op : Nat)
  /-- 0x21 CHROUTE (R121) -/
  | chroute (ch : Nat)
  /-- 0x22 OPMAP (R122) -/
  | opmap (ch op : Nat)
  /-- 0x30 SETALG (R140) -/
  | setalg (ch alg fb : Nat)
  /-- 0x31 SETPAN (R143) -/
  | setpan (ch left right ams pms : Nat)
  /-- 0x32 SETFREQ (R146) -/
  | setfreq (ch block fnum : Nat)
  /-- 0x33 KEYON (R149) -/
  | keyon (ch mask : Nat)
  /-- 0x34 KEYOFF (R150) -/
  | keyoff (ch mask : Nat)
  /-- 0x35 LOADPATCH (R153) -/
  | loadpatch (ch : Nat) (patch : Patch)
  /-- 0x36 SETTL (R157) -/
  | settl (ch op tl : Nat)
  /-- 0x37 SETCARRIER (R158) -/
  | setcarrier (ch op : Nat)
  /-- 0x38 GETFREQ (R160) -/
  | getfreq (ch : Nat)
  /-- 0x39 GETVOL (R161) -/
  | getvol (ch : Nat)
  /-- 0x3A GETPATCH (R162) -/
  | getpatch (ch : Nat)
  /-- 0x40 ENVATTACK (R181) -/
  | envattack (ch target speed : Nat)
  /-- 0x41 ENVRELEASE (R182) -/
  | envrelease (ch speed : Nat)
  /-- 0x42 ENVTICK (R183) -/
  | envtick (ch : Nat)
  /-- 0x43 ENVRESET (R188) -/
  | envreset (ch : Nat)
  /-- 0x44 ENVUPD (R189) -/
  | envupd (ch : Nat)
  /-- 0x50 VIBSET (R200) -/
  | vibset (ch block fnum depth speed : Nat)
  /-- 0x51 VIBCLR (R201) -/
  | vibclr (ch : Nat)
  /-- 0x52 VIBTICK (R202) -/
  | vibtick (ch : Nat)
  /-- 0x53 VIBUPD (R208) -/
  | vibupd (ch : Nat)
  /-- 0x54 PBEND (R210) -/
  | pbend (cur tgt spd : Nat)
  /-- 0x60 DACEN (R231) -/
  | dacen
  /-- 0x61 DACDIS (R232) -/
  | dacdis
  /-- 0x62 PLAYBUF (R233); its `len` operand is the number of samples (R78) -/
  | playbuf (div : Nat) (samples : List Nat)
  /-- 0x70 SETTMRA (R246) -/
  | settmra (val : Nat)
  /-- 0x71 SETTMRB (R247) -/
  | settmrb (val : Nat)
  /-- 0x72 TMRSTART (R248) -/
  | tmrstart (flags : Nat)
  /-- 0x73 TMRSTOP (R249) -/
  | tmrstop
  /-- 0x74 TMRAOVF (R250) -/
  | tmraovf
  /-- 0x75 TMRBOVF (R251) -/
  | tmrbovf
  /-- 0x7F FRAME (R265) -/
  | frame
  deriving DecidableEq, Repr

end Sys2Proof
end

