-- ==== Sys2Proof/WellFormed.lean ====
section
/-! DEFINITION. Two checks on a command. `Instr.wf`: every operand fits the packet bytes R71 gives it, so that the command
has a packet (spec/30_encoding.md R70 to R72, R76). `Instr.legal`: every index and ranged operand is in the range
spec/30_encoding.md R73 calls legal, so that the command is not refused for an operand. -/

namespace Sys2Proof

/-- The operand fits its one packet byte (R70). -/
def fits8 (n : Nat) : Bool := n < 256

/-- The operand fits its two packet bytes (R72). -/
def fits16 (n : Nat) : Bool := n < 65536

/-- Every field of one operator's part of a patch record is a byte (R76). -/
def PatchOp.wf (p : PatchOp) : Bool :=
  fits8 p.detune && fits8 p.multiply && fits8 p.totalLevel && fits8 p.rateScale && fits8 p.attackRate &&
    fits8 p.amEnable && fits8 p.decay1Rate && fits8 p.decay2Rate && fits8 p.sustainLevel && fits8 p.releaseRate &&
    fits8 p.ssgEg

/-- Every field of a patch record is a byte (R76). -/
def Patch.wf (p : Patch) : Bool :=
  fits8 p.algorithm && fits8 p.feedback && fits8 p.pan && p.op0.wf && p.op1.wf && p.op2.wf && p.op3.wf

/-- Every operand fits the packet bytes of R71's table. -/
def Instr.wf : Instr → Bool
  | .write port reg val => fits8 port && fits8 reg && fits8 val
  | .busyq => true
  | .regofs op => fits8 op
  | .chroute ch => fits8 ch
  | .opmap ch op => fits8 ch && fits8 op
  | .setalg ch alg fb => fits8 ch && fits8 alg && fits8 fb
  | .setpan ch left right ams pms => fits8 ch && fits8 left && fits8 right && fits8 ams && fits8 pms
  | .setfreq ch block fnum => fits8 ch && fits8 block && fits16 fnum
  | .keyon ch mask => fits8 ch && fits8 mask
  | .keyoff ch mask => fits8 ch && fits8 mask
  | .loadpatch ch patch => fits8 ch && patch.wf
  | .settl ch op tl => fits8 ch && fits8 op && fits8 tl
  | .setcarrier ch op => fits8 ch && fits8 op
  | .getfreq ch => fits8 ch
  | .getvol ch => fits8 ch
  | .getpatch ch => fits8 ch
  | .envattack ch target speed => fits8 ch && fits8 target && fits8 speed
  | .envrelease ch speed => fits8 ch && fits8 speed
  | .envtick ch => fits8 ch
  | .envreset ch => fits8 ch
  | .envupd ch => fits8 ch
  | .vibset ch block fnum depth speed => fits8 ch && fits8 block && fits16 fnum && fits8 depth && fits8 speed
  | .vibclr ch => fits8 ch
  | .vibtick ch => fits8 ch
  | .vibupd ch => fits8 ch
  | .pbend cur tgt spd => fits16 cur && fits16 tgt && fits16 spd
  | .dacen => true
  | .dacdis => true
  | .playbuf div samples => fits16 div && fits16 samples.length && samples.all fits8
  | .settmra val => fits16 val
  | .settmrb val => fits8 val
  | .tmrstart flags => fits8 flags
  | .tmrstop => true
  | .tmraovf => true
  | .tmrbovf => true
  | .frame => true

/-- A legal channel index, 0 to 5 (R12, R73). -/
def channelLegal (ch : Nat) : Bool := ch < 6

/-- A legal operator index, 0 to 3 (R12, R73). -/
def operatorLegal (op : Nat) : Bool := op < 4

/-- A legal port, 0 or 1 (R12, R73). -/
def portLegal (port : Nat) : Bool := port < 2

/-- A legal envelope speed: not 0 and within ENV_SPEED_WIDTH bits, 1 to 255 at its default 8 (R73, R180). -/
def envSpeedLegal (width speed : Nat) : Bool := 1 ≤ speed && speed < 2 ^ width

/-- A legal vibrato speed, 1 to 8 (R73, R200). -/
def vibSpeedLegal (speed : Nat) : Bool := 1 ≤ speed && speed ≤ 8

/-- Every index and ranged operand is legal (R73), `envSpeedWidth` being ENV_SPEED_WIDTH; operands of the value and boolean
classes are always legal. -/
def Instr.legal (envSpeedWidth : Nat) : Instr → Bool
  | .write port _ _ => portLegal port
  | .busyq => true
  | .regofs op => operatorLegal op
  | .chroute ch => channelLegal ch
  | .opmap ch op => channelLegal ch && operatorLegal op
  | .setalg ch _ _ => channelLegal ch
  | .setpan ch _ _ _ _ => channelLegal ch
  | .setfreq ch _ _ => channelLegal ch
  | .keyon ch _ => channelLegal ch
  | .keyoff ch _ => channelLegal ch
  | .loadpatch ch _ => channelLegal ch
  | .settl ch op _ => channelLegal ch && operatorLegal op
  | .setcarrier ch op => channelLegal ch && operatorLegal op
  | .getfreq ch => channelLegal ch
  | .getvol ch => channelLegal ch
  | .getpatch ch => channelLegal ch
  | .envattack ch _ speed => channelLegal ch && envSpeedLegal envSpeedWidth speed
  | .envrelease ch speed => channelLegal ch && envSpeedLegal envSpeedWidth speed
  | .envtick ch => channelLegal ch
  | .envreset ch => channelLegal ch
  | .envupd ch => channelLegal ch
  | .vibset ch _ _ _ speed => channelLegal ch && vibSpeedLegal speed
  | .vibclr ch => channelLegal ch
  | .vibtick ch => channelLegal ch
  | .vibupd ch => channelLegal ch
  | .pbend _ _ _ => true
  | .dacen => true
  | .dacdis => true
  | .playbuf _ _ => true
  | .settmra _ => true
  | .settmrb _ => true
  | .tmrstart _ => true
  | .tmrstop => true
  | .tmraovf => true
  | .tmrbovf => true
  | .frame => true

end Sys2Proof
end

