-- ==== Sys2Proof/Decode.lean ====
section
/-! DEFINITION. The packet decoder, total on any bytes, and the encoder, both from the opcode map of
spec/30_encoding.md R71; the patch record of R76; the host's view of one opcode-table row (`decodeTableWord`). Decoding is
steps (2) to (4) of R74; the checks and masks of steps (5) and (6) belong to the commands' meanings. -/

namespace Sys2Proof

/-- Why bytes are no packet (R74, R77): the two decode refusals of R286. -/
inductive DecodeError where
  /-- the opcode byte is not in R71's table -/
  | reservedOpcode
  /-- fewer than `L` bytes remain -/
  | truncatedPacket
  deriving DecidableEq, Repr

/-- The packet length `L` of each opcode (R71), opcode byte included; for PLAYBUF its five header bytes. An opcode with
no row is reserved (R77). -/
def headerLength (op : Nat) : Option Nat :=
  match op with
  | 0x10 => some 4
  | 0x11 => some 1
  | 0x20 => some 2
  | 0x21 => some 2
  | 0x22 => some 3
  | 0x30 => some 4
  | 0x31 => some 6
  | 0x32 => some 5
  | 0x33 => some 3
  | 0x34 => some 3
  | 0x35 => some 49
  | 0x36 => some 4
  | 0x37 => some 3
  | 0x38 => some 2
  | 0x39 => some 2
  | 0x3A => some 2
  | 0x40 => some 4
  | 0x41 => some 3
  | 0x42 => some 2
  | 0x43 => some 2
  | 0x44 => some 2
  | 0x50 => some 7
  | 0x51 => some 2
  | 0x52 => some 2
  | 0x53 => some 2
  | 0x54 => some 7
  | 0x60 => some 1
  | 0x61 => some 1
  | 0x62 => some 5
  | 0x70 => some 3
  | 0x71 => some 2
  | 0x72 => some 2
  | 0x73 => some 1
  | 0x74 => some 1
  | 0x75 => some 1
  | 0x7F => some 1
  | _ => none

/-- Byte `k` of the bytes at hand; a byte that is not there counts as 0 until the length check refuses the packet. -/
def byteAt (bs : List Byte) (k : Nat) : Nat := (bs.getD k 0).toNat

/-- The 16-bit operand at bytes `k` and `k + 1`, high byte first (R72). -/
def halfAt (bs : List Byte) (k : Nat) : Nat := byteAt bs k * 256 + byteAt bs (k + 1)

/-- The packet length of the bytes at hand (R74 step 3): PLAYBUF's also depends on its `len` operand (R71). -/
def packetLength (bs : List Byte) : Option Nat :=
  match headerLength (byteAt bs 0) with
  | none => none
  | some h => some (if byteAt bs 0 = 0x62 then h + halfAt bs 3 else h)

/-- The eleven bytes of one operator of a patch record that begins at byte `k` (R76). -/
def patchOpAt (bs : List Byte) (k : Nat) : PatchOp where
  detune := byteAt bs k
  multiply := byteAt bs (k + 1)
  totalLevel := byteAt bs (k + 2)
  rateScale := byteAt bs (k + 3)
  attackRate := byteAt bs (k + 4)
  amEnable := byteAt bs (k + 5)
  decay1Rate := byteAt bs (k + 6)
  decay2Rate := byteAt bs (k + 7)
  sustainLevel := byteAt bs (k + 8)
  releaseRate := byteAt bs (k + 9)
  ssgEg := byteAt bs (k + 10)

/-- The 47-byte patch record that begins at byte `k` (R76): operator `o` at `k + 3 + 11 * o`. -/
def patchAt (bs : List Byte) (k : Nat) : Patch where
  algorithm := byteAt bs k
  feedback := byteAt bs (k + 1)
  pan := byteAt bs (k + 2)
  op0 := patchOpAt bs (k + 3)
  op1 := patchOpAt bs (k + 14)
  op2 := patchOpAt bs (k + 25)
  op3 := patchOpAt bs (k + 36)

/-- PLAYBUF's samples: the `len` bytes after its header (R71, R233). -/
def samplesOf (bs : List Byte) : List Nat := ((bs.drop 5).take (halfAt bs 3)).map BitVec.toNat

/-- The command whose packet the bytes begin with, operands assembled (R71, R72; R74 step 4). -/
def assemble (bs : List Byte) : Option Instr :=
  let b := byteAt bs
  let h := halfAt bs
  match b 0 with
  | 0x10 => some (.write (b 1) (b 2) (b 3))
  | 0x11 => some .busyq
  | 0x20 => some (.regofs (b 1))
  | 0x21 => some (.chroute (b 1))
  | 0x22 => some (.opmap (b 1) (b 2))
  | 0x30 => some (.setalg (b 1) (b 2) (b 3))
  | 0x31 => some (.setpan (b 1) (b 2) (b 3) (b 4) (b 5))
  | 0x32 => some (.setfreq (b 1) (b 2) (h 3))
  | 0x33 => some (.keyon (b 1) (b 2))
  | 0x34 => some (.keyoff (b 1) (b 2))
  | 0x35 => some (.loadpatch (b 1) (patchAt bs 2))
  | 0x36 => some (.settl (b 1) (b 2) (b 3))
  | 0x37 => some (.setcarrier (b 1) (b 2))
  | 0x38 => some (.getfreq (b 1))
  | 0x39 => some (.getvol (b 1))
  | 0x3A => some (.getpatch (b 1))
  | 0x40 => some (.envattack (b 1) (b 2) (b 3))
  | 0x41 => some (.envrelease (b 1) (b 2))
  | 0x42 => some (.envtick (b 1))
  | 0x43 => some (.envreset (b 1))
  | 0x44 => some (.envupd (b 1))
  | 0x50 => some (.vibset (b 1) (b 2) (h 3) (b 5) (b 6))
  | 0x51 => some (.vibclr (b 1))
  | 0x52 => some (.vibtick (b 1))
  | 0x53 => some (.vibupd (b 1))
  | 0x54 => some (.pbend (h 1) (h 3) (h 5))
  | 0x60 => some .dacen
  | 0x61 => some .dacdis
  | 0x62 => some (.playbuf (h 1) (samplesOf bs))
  | 0x70 => some (.settmra (h 1))
  | 0x71 => some (.settmrb (b 1))
  | 0x72 => some (.tmrstart (b 1))
  | 0x73 => some .tmrstop
  | 0x74 => some .tmraovf
  | 0x75 => some .tmrbovf
  | 0x7F => some .frame
  | _ => none

/-- Decodes the packet the bytes begin with (R74 steps 2 to 4); no bytes at all are a packet cut short. -/
def decode (bs : List Byte) : Except DecodeError Instr :=
  if bs.isEmpty then .error .truncatedPacket
  else
    match packetLength bs with
    | none => .error .reservedOpcode
    | some n =>
      if bs.length < n then .error .truncatedPacket
      else
        match assemble bs with
        | none => .error .reservedOpcode
        | some i => .ok i

/-- One operand byte. -/
def toByte (n : Nat) : Byte := BitVec.ofNat 8 n

/-- A 16-bit operand's two bytes, high byte first (R72). -/
def toBytes16 (n : Nat) : List Byte := [toByte (n / 256), toByte n]

/-- One operator's part of a patch record (R76). -/
def encodePatchOp (p : PatchOp) : List Byte :=
  [toByte p.detune, toByte p.multiply, toByte p.totalLevel, toByte p.rateScale, toByte p.attackRate,
    toByte p.amEnable, toByte p.decay1Rate, toByte p.decay2Rate, toByte p.sustainLevel, toByte p.releaseRate,
    toByte p.ssgEg]

/-- The 47-byte patch record (R76). -/
def encodePatch (p : Patch) : List Byte :=
  [toByte p.algorithm, toByte p.feedback, toByte p.pan] ++ encodePatchOp p.op0 ++ encodePatchOp p.op1 ++
    encodePatchOp p.op2 ++ encodePatchOp p.op3

/-- PLAYBUF's `len`: the number of samples, masked to 16 bits (R73, R78). -/
def bufferLen (samples : List Nat) : Nat := samples.length % 65536

/-- The packet of a command (R70, R71). -/
def encode : Instr → List Byte
  | .write port reg val => [0x10, toByte port, toByte reg, toByte val]
  | .busyq => [0x11]
  | .regofs op => [0x20, toByte op]
  | .chroute ch => [0x21, toByte ch]
  | .opmap ch op => [0x22, toByte ch, toByte op]
  | .setalg ch alg fb => [0x30, toByte ch, toByte alg, toByte fb]
  | .setpan ch left right ams pms => [0x31, toByte ch, toByte left, toByte right, toByte ams, toByte pms]
  | .setfreq ch block fnum => [0x32, toByte ch, toByte block] ++ toBytes16 fnum
  | .keyon ch mask => [0x33, toByte ch, toByte mask]
  | .keyoff ch mask => [0x34, toByte ch, toByte mask]
  | .loadpatch ch patch => [0x35, toByte ch] ++ encodePatch patch
  | .settl ch op tl => [0x36, toByte ch, toByte op, toByte tl]
  | .setcarrier ch op => [0x37, toByte ch, toByte op]
  | .getfreq ch => [0x38, toByte ch]
  | .getvol ch => [0x39, toByte ch]
  | .getpatch ch => [0x3A, toByte ch]
  | .envattack ch target speed => [0x40, toByte ch, toByte target, toByte speed]
  | .envrelease ch speed => [0x41, toByte ch, toByte speed]
  | .envtick ch => [0x42, toByte ch]
  | .envreset ch => [0x43, toByte ch]
  | .envupd ch => [0x44, toByte ch]
  | .vibset ch block fnum depth speed =>
    [0x50, toByte ch, toByte block] ++ toBytes16 fnum ++ [toByte depth, toByte speed]
  | .vibclr ch => [0x51, toByte ch]
  | .vibtick ch => [0x52, toByte ch]
  | .vibupd ch => [0x53, toByte ch]
  | .pbend cur tgt spd => [0x54] ++ toBytes16 cur ++ toBytes16 tgt ++ toBytes16 spd
  | .dacen => [0x60]
  | .dacdis => [0x61]
  | .playbuf div samples => [0x62] ++ toBytes16 div ++ toBytes16 (bufferLen samples) ++ (samples.take (bufferLen samples)).map toByte
  | .settmra val => [0x70] ++ toBytes16 val
  | .settmrb val => [0x71, toByte val]
  | .tmrstart flags => [0x72, toByte flags]
  | .tmrstop => [0x73]
  | .tmraovf => [0x74]
  | .tmrbovf => [0x75]
  | .frame => [0x7F]

/-- The low `n` bytes of `w`, the least significant first: the order in which the opcode table numbers an instruction's
bits and the stream stores its bytes (R70). -/
def lowBytes : Nat → Nat → List Byte
  | 0, _ => []
  | n + 1, w => toByte w :: lowBytes n (w / 256)

/-- The packet the opcode table's word `w` of `nbits` bits stands for: its bytes, then zero bytes up to the packet's own
length. A word of a reserved opcode stays as it is. -/
def tablePacket (nbits w : Nat) : List Byte :=
  let bs := lowBytes ((nbits + 7) / 8) w
  match packetLength bs with
  | none => bs
  | some n => (bs ++ List.replicate (n - bs.length) 0).take n

/-- The instruction the decoder reads from the table word `w`; none where it refuses. -/
def decodeTableWord (nbits w : Nat) : Option Instr :=
  match decode (tablePacket nbits w) with
  | .ok i => some i
  | .error _ => none

end Sys2Proof
end

