-- ==== Sys2Proof/Machine/Tables.lean ====
section
/-! DEFINITION. The records of the three per-channel tables, spec/10_state.md R22 to R30, and the default reset values of
spec/70_reset_and_hazards.md R301 to R303 (notes/assumptions/10.md). -/

namespace Sys2Proof.Machine

/-- `CH[c].op[o]`: one operator parameter set (R23). `detune` is its raw three sign-magnitude bits, bit 3 of `ssgEg` the
enable bit. -/
structure OpState where
  detune : BitVec 3
  multiply : BitVec 4
  totalLevel : BitVec 7
  rateScale : BitVec 2
  attackRate : BitVec 5
  amEnable : Bool
  decay1Rate : BitVec 5
  decay2Rate : BitVec 5
  sustainLevel : BitVec 4
  releaseRate : BitVec 4
  ssgEg : BitVec 4
  deriving DecidableEq, Repr

/-- `CH[c]`: the shadow ("live") state of a channel (R22, R25). -/
structure ChState where
  algorithm : BitVec 3
  feedback : BitVec 3
  left : Bool
  right : Bool
  ams : BitVec 2
  pms : BitVec 3
  block : BitVec 3
  fnum : BitVec 11
  carrier : Fin 4
  op : Vector OpState 4
  deriving DecidableEq, Repr

/-- `ENV[c]`: the envelope state of a channel (R26); volumes are inverted, 0 loudest and 127 silent. `speed` and `counter`
are ENV_SPEED_WIDTH bits wide, an open parameter (R9): numbers that every command keeps within that width
(`EnvState.Inv`; notes/assumptions/8.md). -/
structure EnvState where
  current : BitVec 7
  target : BitVec 7
  speed : Nat
  counter : Nat
  active : Bool
  deriving DecidableEq, Repr

/-- `VIB[c]`: the vibrato state of a channel (R29). -/
structure VibState where
  present : Bool
  baseBlock : BitVec 3
  baseFnum : BitVec 11
  depth : BitVec 4
  speed : BitVec 4
  phase : BitVec 6
  deriving DecidableEq, Repr

/-- The default of RESET_CH's operator parameter sets (R301): every field 0 except `totalLevel`, 127. -/
def OpState.reset : OpState where
  detune := 0
  multiply := 0
  totalLevel := 127
  rateScale := 0
  attackRate := 0
  amEnable := false
  decay1Rate := 0
  decay2Rate := 0
  sustainLevel := 0
  releaseRate := 0
  ssgEg := 0

/-- The default of RESET_CH (R9, R301): every field 0 except `carrier`, 3, and the operators' `totalLevel`. -/
def ChState.reset : ChState where
  algorithm := 0
  feedback := 0
  left := false
  right := false
  ams := 0
  pms := 0
  block := 0
  fnum := 0
  carrier := 3
  op := #v[OpState.reset, OpState.reset, OpState.reset, OpState.reset]

/-- The default of RESET_ENV (R9, R302). -/
def EnvState.reset : EnvState where
  current := 127
  target := 127
  speed := 1
  counter := 0
  active := false

/-- The default of RESET_VIB (R9, R303). -/
def VibState.reset : VibState where
  present := false
  baseBlock := 0
  baseFnum := 0
  depth := 0
  speed := 1
  phase := 0

end Sys2Proof.Machine
end

