-- ==== Sys2Proof/Config.lean ====
section
/-! DEFINITION. What an implementation of the driver fixes for a run (spec/00_scope.md R8 and R9,
spec/93_implementation_defined.md U13), as one record of plain data, and the model's free values (opaque constants).
The record is held in the machine's State because Host.Core.step takes nothing else; no command writes it
(notes/assumptions/1.md). Its defaults stand in Sys2Proof/Machine/Defaults.lean. -/

namespace Sys2Proof

/-- SETTLE_MODE (R9, R102): the settle strategy of the Port Driver, fixed for a run. -/
inductive SettleMode where
  /-- (a) a fixed-iteration busy-loop delay -/
  | fixed
  /-- (b) polling the busy flag with an iteration cap -/
  | poll
  deriving DecidableEq, Repr

/-- VIB_OFFSET (R9, R205): a total function from (phase 0..63, depth 0..15) to a signed integer, fixed for a run. It is
plain data: the default triangle of R204 by name, or the 1024 values of any function whatever, the value for phase `p`
and depth `d` at index `16 * p + d`. -/
inductive VibOffset where
  /-- VIB_OFFSET_TRI of R204 -/
  | tri
  /-- any other offset function, by its values -/
  | table (values : Vector Int 1024)
  deriving DecidableEq, Repr

/-- DAC_WAIT (R9, R233): a function from the rate divisor to a duration that does not decrease as the divisor grows. It is
plain data, by the amount each divisor adds to the one before; the source gives no value, so the default leaves every
amount free. -/
inductive DacWait where
  /-- no value stated: every amount is the free value `Config.freeWaitStep` -/
  | unstated
  /-- any other non-decreasing function, by its amounts -/
  | steps (amounts : Vector Nat 65536)
  deriving DecidableEq, Repr

/-- The parameters the source leaves open (R9). -/
structure Config where
  /-- SETTLE_MODE -/
  settleMode : SettleMode
  /-- SETTLE_ITER: iterations of the fixed delay; appears only inside the `SETTLE(n)` marker -/
  settleIter : Nat
  /-- BUSY_CAP: the most status reads one settle makes in POLL mode, at least 1 -/
  busyCap : Nat
  /-- ADDR_P0A: bus address of port 0's address sub-port -/
  addrP0A : Nat
  /-- ADDR_P0D -/
  addrP0D : Nat
  /-- ADDR_P1A -/
  addrP1A : Nat
  /-- ADDR_P1D -/
  addrP1D : Nat
  /-- ADDR_ST: bus address of the status byte -/
  addrST : Nat
  /-- ST_BUSY_BIT -/
  busyBit : Fin 8
  /-- ST_TA_BIT -/
  taBit : Fin 8
  /-- ST_TB_BIT -/
  tbBit : Fin 8
  /-- REG_ALG_FB -/
  regAlgFb : Byte
  /-- REG_PAN -/
  regPan : Byte
  /-- REG_FREQ_HI -/
  regFreqHi : Byte
  /-- REG_FREQ_LO -/
  regFreqLo : Byte
  /-- REG_KEY -/
  regKey : Byte
  /-- REG_DT_MUL -/
  regDtMul : Byte
  /-- REG_TL -/
  regTl : Byte
  /-- REG_RS_AR -/
  regRsAr : Byte
  /-- REG_AM_D1R -/
  regAmD1r : Byte
  /-- REG_D2R -/
  regD2r : Byte
  /-- REG_D1L_RR -/
  regD1lRr : Byte
  /-- REG_SSGEG -/
  regSsgEg : Byte
  /-- REG_DAC_DATA -/
  regDacData : Byte
  /-- REG_DAC_EN -/
  regDacEn : Byte
  /-- DAC_EN_ON -/
  dacEnOn : Byte
  /-- DAC_EN_OFF -/
  dacEnOff : Byte
  /-- REG_TMRA_HI -/
  regTmrAHi : Byte
  /-- REG_TMRA_LO -/
  regTmrALo : Byte
  /-- REG_TMRB -/
  regTmrB : Byte
  /-- REG_TMR_CTRL -/
  regTmrCtrl : Byte
  /-- TMR_STOP_VALUE -/
  tmrStopValue : Byte
  /-- VIB_OFFSET -/
  vibOffset : VibOffset
  /-- DAC_WAIT -/
  dacWait : DacWait
  /-- PB_WIDTH: bit width of the pitch-bend operands -/
  pbWidth : Nat
  /-- ENV_SPEED_WIDTH: bit width of the envelope's `speed` and `counter` -/
  envSpeedWidth : Nat
  /-- RESET_CH -/
  resetCh : Machine.ChState
  /-- RESET_ENV -/
  resetEnv : Machine.EnvState
  /-- RESET_VIB -/
  resetVib : Machine.VibState
  deriving DecidableEq, Repr

/-- RESET_ENV is a legal envelope state for a width of `speed` and `counter` (R26, R27). -/
def Config.resetEnvWf (k : Config) : Bool :=
  1 ≤ k.resetEnv.speed && k.resetEnv.speed < 2 ^ k.envSpeedWidth && k.resetEnv.counter + 1 < 2 ^ k.envSpeedWidth &&
    (k.resetEnv.active || k.resetEnv.current == k.resetEnv.target)

/-- RESET_VIB is a legal vibrato state (R29). -/
def Config.resetVibWf (k : Config) : Bool := 1 ≤ k.resetVib.speed.toNat && k.resetVib.speed.toNat ≤ 8

/-- The bounds R9 and D4 put on the open parameters: BUSY_CAP is at least 1, the three status bits are pairwise distinct,
`speed` has at least the one bit its reset value 1 needs, and the reset records are legal states. -/
def Config.wf (k : Config) : Bool :=
  1 ≤ k.busyCap && k.busyBit ≠ k.taBit && k.busyBit ≠ k.tbBit && k.taBit ≠ k.tbBit && 1 ≤ k.envSpeedWidth &&
    k.resetEnvWf && k.resetVibWf

/-- FREE VALUE (notes/assumptions/2.md): the byte the chip answers to the n-th status read when the State lists no answer
for it. The spec puts no constraint on it (R56). -/
opaque Config.freeStatus : Nat → Byte

/-- FREE VALUE (notes/assumptions/6.md): the register number written when a base and its offsets add up to the argument,
256 or more. The spec states the sum only where it is a byte (R124, R125). -/
opaque Config.freeRegNumber : Nat → Byte

/-- FREE VALUE (notes/assumptions/3.md): SETTLE_ITER, for which the spec states no default (R9). -/
opaque Config.openSettleIter : Nat

/-- FREE VALUE (notes/assumptions/9.md): what a divisor adds to the duration of the wait after a sample, where DAC_WAIT has
no stated value (R9, R233). -/
opaque Config.freeWaitStep : Nat → Nat

/-- FREE VALUE (notes/assumptions/8.md): PBEND's first response byte for a next value of more than 16 bits, which only a
PB_WIDTH above 16 admits; R210 states the two bytes of a 16-bit value. -/
opaque Config.freeBendHigh : Nat → Byte

end Sys2Proof
end

