-- ==== Sys2Proof/Machine/Defaults.lean ====
section
/-! DEFINITION. The default values spec/00_scope.md R9 gives the open parameters, which State.reset takes
(notes/assumptions/3.md, 4.md). Every statement about the machine ranges over all configurations. -/

namespace Sys2Proof.Machine

/-- The "default" column of R9: register numbers, status bits and addresses are marked there as general knowledge (GK);
SETTLE_MODE, BUSY_CAP, TMR_STOP_VALUE, VIB_OFFSET, the two widths and the reset records are the spec's own choice;
SETTLE_ITER and DAC_WAIT have none and stay open. -/
def defaultConfig : Config where
  settleMode := .poll
  settleIter := Config.openSettleIter
  busyCap := 4
  addrP0A := 0xA04000
  addrP0D := 0xA04001
  addrP1A := 0xA04002
  addrP1D := 0xA04003
  addrST := 0xA04000
  busyBit := 7
  taBit := 0
  tbBit := 1
  regAlgFb := 0xB0
  regPan := 0xB4
  regFreqHi := 0xA4
  regFreqLo := 0xA0
  regKey := 0x28
  regDtMul := 0x30
  regTl := 0x40
  regRsAr := 0x50
  regAmD1r := 0x60
  regD2r := 0x70
  regD1lRr := 0x80
  regSsgEg := 0x90
  regDacData := 0x2A
  regDacEn := 0x2B
  dacEnOn := 0x80
  dacEnOff := 0x00
  regTmrAHi := 0x24
  regTmrALo := 0x25
  regTmrB := 0x26
  regTmrCtrl := 0x27
  tmrStopValue := 0x00
  vibOffset := .tri
  dacWait := .unstated
  pbWidth := 16
  envSpeedWidth := 8
  resetCh := ChState.reset
  resetEnv := EnvState.reset
  resetVib := VibState.reset

end Sys2Proof.Machine
end

