-- ==== Sys2Proof/Machine/State.lean ====
section
/-! DEFINITION. The state of the driver, spec/10_state.md: the tuple `(cp, CH, ENV, VIB, capx, OUT, TRACE)`, and with it
the inputs of a run (the configuration, the command stream, the chip's answers to status reads), which Host.Core.step
has no other way to receive; the fault and refusal reasons; the state after reset (spec/70_reset_and_hazards.md). -/

namespace Sys2Proof.Machine

/-- A port of the chip: one address/data pair of sub-ports (R1, R8 NPORT). -/
inductive Port where
  | p0
  | p1
  deriving DecidableEq, Repr

/-- The four write-only locations of the chip port space (R40, R50). -/
inductive Loc where
  | p0a
  | p0d
  | p1a
  | p1d
  deriving DecidableEq, Repr

/-- One event of `TRACE` (R34). -/
inductive Event where
  /-- `W(loc, v)`: a byte written to a port location -/
  | w (loc : Loc) (v : Byte)
  /-- `SR(v)`: a status byte read -/
  | sr (v : Byte)
  /-- `SETTLE(n)`: a fixed-delay settle of `n` iterations -/
  | settle (n : Nat)
  /-- `CAPX`: a settle that exhausted its cap -/
  | capx
  /-- `SWAIT(d)`: the wait after a DAC sample, with the rate divisor `d` -/
  | swait (d : BitVec 16)
  deriving DecidableEq, Repr

/-- The reasons a step can stop with a fault: none. The driver raises no exception (R280), and "`fault` and `stuck` are
never used" (spec/93_implementation_defined.md). Safe: nothing is hidden by it. -/
inductive Fault where
  deriving DecidableEq, Repr

/-- The reasons a command is given no meaning (R286), each with the `cp` of the refused command (R287). Every one is safe:
the run stops, has no end state, and nothing can be claimed of it. -/
inductive Refusal where
  /-- raised by `exec`'s arm of an instruction that has no meaning in the model yet; safe -/
  | notModelled (mnemonic : String)
  /-- `BadPort`: raised by WRITE when `port > 1`; safe -/
  | badPort (cp : Nat)
  /-- `BadChannel`: raised by every command with a `ch` operand when `ch > 5`; safe -/
  | badChannel (cp : Nat)
  /-- `BadOperator`: raised by REGOFS, OPMAP, SETTL, SETCARRIER when `op > 3`; safe -/
  | badOperator (cp : Nat)
  /-- `BadEnvSpeed`: raised by ENVATTACK, ENVRELEASE when `speed` is 0 or beyond ENV_SPEED_WIDTH bits (outside 1..255 at its
  default 8); safe -/
  | badEnvSpeed (cp : Nat)
  /-- `BadVibSpeed`: raised by VIBSET when `speed` is outside 1..8; safe -/
  | badVibSpeed (cp : Nat)
  /-- `VibAbsent`: raised by VIBTICK, VIBUPD when `VIB[ch].present = 0`; safe -/
  | vibAbsent (cp : Nat)
  /-- `ReservedOpcode`: raised by decoding an opcode byte that is not in R71's table; safe -/
  | reservedOpcode (cp : Nat)
  /-- `TruncatedPacket`: raised by decoding when fewer than `L` bytes remain; safe -/
  | truncatedPacket (cp : Nat)
  deriving DecidableEq, Repr

/-- The machine. Every field is plain data. -/
structure State where
  /-- the open parameters (R9): an argument of the model, fixed for a run, written by no command -/
  cfg : Config
  /-- the host's command stream (R39, R62): an input of the run, written by no command -/
  stream : List Byte
  /-- the command pointer (R21): the index of the next packet's opcode byte -/
  cp : Nat
  /-- `CH[0..5]` (R22, R23) -/
  ch : Vector ChState 6
  /-- `ENV[0..5]` (R26) -/
  env : Vector EnvState 6
  /-- `VIB[0..5]` (R29) -/
  vib : Vector VibState 6
  /-- the cap-exceeded counter (R35) -/
  capx : BitVec 32
  /-- `OUT`, the response stream, oldest byte first (R33) -/
  out : List Byte
  /-- `TRACE`, the bus event history, oldest event first (R34) -/
  trace : List Event
  /-- the MODEL's own: the chip's answers to the next status reads, the first to be consumed first (R56,
  notes/assumptions/2.md); a read beyond the list answers a free value -/
  oracle : List Byte
  /-- the MODEL's own: how many status reads have been made; the free value of a read is taken at this number
  (notes/assumptions/2.md) -/
  reads : Nat
  deriving DecidableEq, Repr

/-- The driver right after the creation of its handle (R300 to R304) with the parameters `k`: the tables at RESET_CH,
RESET_ENV and RESET_VIB (R9), no command stream given yet and no status answer listed (notes/assumptions/2.md, 5.md).
Reset makes no bus access (R300). -/
def State.resetWith (k : Config) : State where
  cfg := k
  stream := []
  cp := 0
  ch := Vector.replicate 6 k.resetCh
  env := Vector.replicate 6 k.resetEnv
  vib := Vector.replicate 6 k.resetVib
  capx := 0
  out := []
  trace := []
  oracle := []
  reads := 0

/-- The driver right after reset with R9's defaults. -/
def State.reset : State := State.resetWith defaultConfig

end Sys2Proof.Machine
end

