-- ==== Sys2Proof/Machine/Ops.lean ====
section
/-! DEFINITION. The named operations every meaning is built from: the bus primitives and the trace
(spec/00_scope.md R14, R15), the settle wait and the port write (spec/40_port_driver.md R101, R102), the per-channel
tables (R13), the response stream, the command pointer, the command stream, and refusing a command
(spec/60_exceptions.md R286, R287).

Taking an exception and returning from one: the driver has neither. "The complete list of synchronous exceptions is
empty" (R280), it takes no interrupt (R282), and there is no trap entry, no saved state, no vector and no return command
(R285). What stands in their place is `refuse`, the one operation by which a command is given no meaning. -/

namespace Sys2Proof.Machine

/-- What a command answers. -/
abbrev Result := Host.Outcome State Fault Refusal

/-- `refuse <Reason>` (R12, R15): the run stops at this command with the reason and the value of `cp` (R287). -/
def refuse (reason : Nat → Refusal) (s : State) : Result := .refused (reason s.cp)

/-! ### The trace and the bus (R14, R15) -/

/-- `emit(e)`: appends an event to `TRACE`. -/
def emit (e : Event) (s : State) : State := { s with trace := s.trace ++ [e] }

/-- `MemWrite(loc, 1, v)`: a byte written to a port location; in the driver's terms an event and nothing else (R57). -/
def memWrite (loc : Loc) (v : Byte) (s : State) : State := emit (.w loc v) s

/-- The byte the chip will answer to the next status read: the oracle of R56, any byte. -/
def nextStatus (s : State) : Byte :=
  match s.oracle with
  | [] => Config.freeStatus s.reads
  | b :: _ => b

/-- `MemRead(ST, 1)`: the state after one status read whose answer is `nextStatus s` (R14, R56). -/
def memRead (s : State) : State :=
  { s with trace := s.trace ++ [.sr (nextStatus s)], oracle := s.oracle.drop 1, reads := s.reads + 1 }

/-- `PA(p)`: the address sub-port of a port (R14). -/
def addrLoc : Port → Loc
  | .p0 => .p0a
  | .p1 => .p1a

/-- `PD(p)`: the data sub-port of a port (R14). -/
def dataLoc : Port → Loc
  | .p0 => .p0d
  | .p1 => .p1d

/-- The bus address of a port location (R9, R50, R51): a platform constant that no rule reads. -/
def busAddress (k : Config) : Loc → Nat
  | .p0a => k.addrP0A
  | .p0d => k.addrP0D
  | .p1a => k.addrP1A
  | .p1d => k.addrP1D

/-! ### The settle wait and the port write -/

/-- The busy flag of a status byte: `s[ST_BUSY_BIT]` (R36, R102). -/
def busyFlag (k : Config) (b : Byte) : Bool := b.getLsbD k.busyBit

/-- `capx <- min(capx + 1, 2^32 - 1)` (R35, R102). -/
def satIncr (n : BitVec 32) : BitVec 32 := BitVec.ofNat 32 (min (n.toNat + 1) 0xFFFFFFFF)

/-- A settle whose every read showed busy: counted and recorded, and nothing else changes (R102, R104). -/
def capExceeded (s : State) : State := emit .capx { s with capx := satIncr s.capx }

/-- The poll loop of R102 with `n` status reads left to make. -/
def pollSettle : Nat → State → State
  | 0, s => capExceeded s
  | n + 1, s => if busyFlag s.cfg (nextStatus s) then pollSettle n (memRead s) else memRead s

/-- `settle()` (R102): the wait after each sub-port write, by either strategy. It always returns (R103). -/
def settle (s : State) : State :=
  match s.cfg.settleMode with
  | .fixed => emit (.settle s.cfg.settleIter) s
  | .poll => pollSettle s.cfg.busyCap s

/-- `portWrite(p, r, v)` (R101): address byte, settle, data byte, settle; the only way a register is written (R100). -/
def portWrite (p : Port) (r v : Byte) (s : State) : State :=
  settle (memWrite (dataLoc p) v (settle (memWrite (addrLoc p) r s)))

/-! ### The per-channel tables (R13) -/

/-- `CH[c]`. -/
def State.chan (s : State) (c : Fin 6) : ChState := s.ch[c]

/-- `CH[c] <- x`. -/
def setChan (c : Fin 6) (x : ChState) (s : State) : State := { s with ch := s.ch.set c x }

/-- `ENV[c]`. -/
def State.envOf (s : State) (c : Fin 6) : EnvState := s.env[c]

/-- `ENV[c] <- x`. -/
def setEnv (c : Fin 6) (x : EnvState) (s : State) : State := { s with env := s.env.set c x }

/-- `VIB[c]`. -/
def State.vibOf (s : State) (c : Fin 6) : VibState := s.vib[c]

/-- `VIB[c] <- x`. -/
def setVib (c : Fin 6) (x : VibState) (s : State) : State := { s with vib := s.vib.set c x }

/-- `CH[c].op[o]` of a channel. -/
def ChState.oper (x : ChState) (o : Fin 4) : OpState := x.op[o]

/-- `CH[c].op[o] <- y`, in the channel's state. -/
def ChState.setOper (x : ChState) (o : Fin 4) (y : OpState) : ChState := { x with op := x.op.set o y }

/-! ### Responses, the command pointer, the command stream -/

/-- `respond(b0, b1, ...)`: appends bytes to `OUT` (R15, R33). -/
def respond (bs : List Byte) (s : State) : State := { s with out := s.out ++ bs }

/-- `cp <- cp + L` (R13, R21). -/
def advance (n : Nat) (s : State) : State := { s with cp := s.cp + n }

/-- A command of packet length `n` that has run to its end (R74 step 8). -/
def finish (n : Nat) (s : State) : Result := .next (advance n s)

/-- The run is over: `cp` equals the length of the command stream (R21, R74 step 1, R309). -/
def runOver (s : State) : Bool := s.cp == s.stream.length

/-- The bytes of the command stream from `cp` on. -/
def fetch (s : State) : List Byte := s.stream.drop s.cp

/-- Fetching and decoding the next command (R74 steps 2 to 4). -/
def fetchDecode (s : State) : Except DecodeError Instr := decode (fetch s)

/-- The refusal of bytes that are no packet (R74 steps 2 and 3). -/
def refuseDecode (e : DecodeError) (s : State) : Result :=
  match e with
  | .reservedOpcode => refuse .reservedOpcode s
  | .truncatedPacket => refuse .truncatedPacket s

/-- The state in which the host's command stream holds the bytes `bs` at `cp`; the bytes before it and after them
stay. -/
def loadPacket (bs : List Byte) (s : State) : State :=
  { s with
    stream := s.stream.take s.cp ++ List.replicate (s.cp - s.stream.length) 0 ++ bs ++
      s.stream.drop (s.cp + bs.length) }

end Sys2Proof.Machine
end

