-- ==== Sys2Proof/Machine/Operands.lean ====
section
/-! DEFINITION. Operands and what is made of them: the index and ranged checks and the masks of spec/30_encoding.md R73
(spec/00_scope.md R11, R12), the operator-addressing mappings of spec/41_operator_addressing.md, and the register byte
formats R80 to R95. -/

namespace Sys2Proof.Machine

/-! ### Operand classes (R73) -/

/-- `mask_n(v)` (R11): a value operand is masked to its width, never refused. -/
def mask (n v : Nat) : BitVec n := BitVec.ofNat n v

/-- `mask_1(v)`: a boolean operand is bit 0 of its byte (R16, R73). -/
def mask1 (v : Nat) : Bool := v.testBit 0

/-- The index check of a `port` operand (R12, R101). -/
def withPort (port : Nat) (s : State) (k : Port → Result) : Result :=
  match port with
  | 0 => k .p0
  | 1 => k .p1
  | _ => refuse .badPort s

/-- The index check of a `ch` operand (R12). -/
def withChannel (ch : Nat) (s : State) (k : Fin 6 → Result) : Result :=
  if h : ch < 6 then k ⟨ch, h⟩ else refuse .badChannel s

/-- The index check of an `op` operand (R12). -/
def withOperator (op : Nat) (s : State) (k : Fin 4 → Result) : Result :=
  if h : op < 4 then k ⟨op, h⟩ else refuse .badOperator s

/-- The range check of an envelope `speed`: not 0 and within ENV_SPEED_WIDTH bits, 1 to 255 at its default 8 (R180). -/
def withEnvSpeed (speed : Nat) (s : State) (k : Nat → Result) : Result :=
  if 1 ≤ speed ∧ speed < 2 ^ s.cfg.envSpeedWidth then k speed else refuse .badEnvSpeed s

/-- The range check of a vibrato `speed`, 1 to 8 (R200). -/
def withVibSpeed (speed : Nat) (s : State) (k : BitVec 4 → Result) : Result :=
  if 1 ≤ speed ∧ speed ≤ 8 then k (mask 4 speed) else refuse .badVibSpeed s

/-- The state check of VIBTICK and VIBUPD, after every operand check (R202, R208, R284). -/
def withVibrato (c : Fin 6) (s : State) (k : Result) : Result :=
  if (s.vibOf c).present then k else refuse .vibAbsent s

/-! ### Operator addressing -/

/-- `regOffset(o)` (R120): operator 0→0, 1→8, 2→4, 3→12; never `4·o` (R123). -/
def regOffset : Fin 4 → Nat
  | 0 => 0
  | 1 => 8
  | 2 => 4
  | 3 => 12

/-- `route(c)` (R121): the port of a channel and its local index. -/
def route (c : Fin 6) : Port × Nat :=
  if c.val ≤ 2 then (.p0, c.val) else (.p1, c.val - 3)

/-- The port operand byte of a port: 0 or 1. -/
def portByte : Port → Byte
  | .p0 => 0
  | .p1 => 1

/-- A register number made of a base and offsets. It is one byte (R52); for a sum beyond a byte the spec states none, and
the number is a free value (notes/assumptions/6.md). -/
def regNumber (n : Nat) : Byte := if n < 256 then BitVec.ofNat 8 n else Config.freeRegNumber n

/-- `chReg(B, c)` (R124): the register number of a per-channel register; its port is `(route c).1`. -/
def chReg (base : Byte) (c : Fin 6) : Byte := regNumber (base.toNat + (route c).2)

/-- `opReg(B, c, o)` (R125): the register number of a per-operator register; its port is `(route c).1`. -/
def opReg (base : Byte) (c : Fin 6) (o : Fin 4) : Byte := regNumber (base.toNat + regOffset o + (route c).2)

/-- `keysel(c)` (R84): the channel field of a key byte; channels 3 to 5 have bit 2 set. -/
def keysel (c : Fin 6) : Byte :=
  if c.val ≤ 2 then BitVec.ofNat 8 c.val else BitVec.ofNat 8 (c.val - 3) ||| 0x4

/-- `KEY_PORT` (R8, R126): the port of the key register, for every channel. -/
def keyPort : Port := .p0

/-! ### Register byte formats (R80 to R95) -/

/-- A one-bit field as a byte. -/
def bit (b : Bool) : Byte := (BitVec.ofBool b).setWidth 8

/-- `F_ALGFB` (R80). -/
def fAlgFb (alg fb : BitVec 3) : Byte := (fb.setWidth 8 <<< 3) ||| alg.setWidth 8

/-- `F_PAN` (R81). -/
def fPan (left right : Bool) (ams : BitVec 2) (pms : BitVec 3) : Byte :=
  (bit left <<< 7) ||| (bit right <<< 6) ||| (ams.setWidth 8 <<< 4) ||| pms.setWidth 8

/-- `F_FREQHI` (R82). -/
def fFreqHi (block : BitVec 3) (fnum : BitVec 11) : Byte := (block.setWidth 8 <<< 3) ||| (fnum >>> 8).setWidth 8

/-- `F_FREQLO` (R83). -/
def fFreqLo (fnum : BitVec 11) : Byte := fnum.setWidth 8

/-- `F_KEY` (R84). -/
def fKey (enable : BitVec 4) (c : Fin 6) : Byte := (enable.setWidth 8 <<< 4) ||| keysel c

/-- `F_DTMUL` (R85). -/
def fDtMul (detune : BitVec 3) (multiply : BitVec 4) : Byte := (detune.setWidth 8 <<< 4) ||| multiply.setWidth 8

/-- `F_TL` (R86). -/
def fTl (totalLevel : BitVec 7) : Byte := totalLevel.setWidth 8

/-- `F_RSAR` (R87). -/
def fRsAr (rateScale : BitVec 2) (attackRate : BitVec 5) : Byte :=
  (rateScale.setWidth 8 <<< 6) ||| attackRate.setWidth 8

/-- `F_AMD1R` (R88). -/
def fAmD1r (amEnable : Bool) (decay1Rate : BitVec 5) : Byte := (bit amEnable <<< 7) ||| decay1Rate.setWidth 8

/-- `F_D2R` (R89). -/
def fD2r (decay2Rate : BitVec 5) : Byte := decay2Rate.setWidth 8

/-- `F_D1LRR` (R90). -/
def fD1lRr (sustainLevel releaseRate : BitVec 4) : Byte :=
  (sustainLevel.setWidth 8 <<< 4) ||| releaseRate.setWidth 8

/-- `F_SSGEG` (R91). -/
def fSsgEg (ssgEg : BitVec 4) : Byte := ssgEg.setWidth 8

/-- `F_TMRAHI` (R92). -/
def fTmrAHi (val : BitVec 10) : Byte := (val >>> 2).setWidth 8

/-- `F_TMRALO` (R92). -/
def fTmrALo (val : BitVec 10) : Byte := val.setWidth 8 &&& 0x3

/-- `F_TMRB` (R93). -/
def fTmrB (val : Byte) : Byte := val

/-- `F_TMRCTRL` (R94): the caller's enable bits, passed through unchanged. -/
def fTmrCtrl (flags : Byte) : Byte := flags

/-! ### Response bytes of wider values (R75) -/

/-- `block`, `fnum >> 8`, `fnum & 0xFF`: the response of GETFREQ, VIBTICK and VIBUPD. -/
def freqBytes (block : BitVec 3) (fnum : BitVec 11) : List Byte :=
  [block.setWidth 8, (fnum >>> 8).setWidth 8, fnum.setWidth 8]

/-- `next >> 8`, `next & 0xFF`: the value part of PBEND's response. A value of more than 16 bits has no stated high byte
(notes/assumptions/8.md). -/
def bendBytes (v : Nat) : List Byte :=
  [if v < 65536 then BitVec.ofNat 8 (v / 256) else Config.freeBendHigh v, BitVec.ofNat 8 v]

end Sys2Proof.Machine
end

