-- ==== Sys2Proof/Machine/Addressing.lean ====
section
/-! DEFINITION. The Operator Addressing commands, spec/41_operator_addressing.md: REGOFS, CHROUTE, OPMAP. All three read no
state and make no bus access. -/

namespace Sys2Proof.Machine

/-- REGOFS op (R120). -/
def execRegofs (op : Nat) (s : State) : Result :=
  withOperator op s fun o => finish 2 (respond [BitVec.ofNat 8 (regOffset o)] s)

/-- CHROUTE ch (R121). -/
def execChroute (ch : Nat) (s : State) : Result :=
  withChannel ch s fun c => finish 2 (respond [portByte (route c).1, BitVec.ofNat 8 (route c).2] s)

/-- OPMAP ch, op (R122): the channel is checked first. -/
def execOpmap (ch op : Nat) (s : State) : Result :=
  withChannel ch s fun c => withOperator op s fun o =>
    finish 3 (respond [portByte (route c).1, BitVec.ofNat 8 (route c).2, BitVec.ofNat 8 (regOffset o)] s)

end Sys2Proof.Machine
end

