-- ==== Sys2Proof/Machine/Channel.lean ====
section
/-! DEFINITION. Channel Control, spec/42_channel_control.md: SETALG, SETPAN, SETFREQ, KEYON, KEYOFF, LOADPATCH, SETTL,
SETCARRIER, GETFREQ, GETVOL, GETPATCH, and the procedures `setFrequency` and `setTotalLevel` that the envelope and vibrato
engines use too. -/

namespace Sys2Proof.Machine

/-! ### Algorithm, pan, frequency, key -/

/-- SETALG ch, alg, fb (R140). -/
def execSetalg (ch alg fb : Nat) (s : State) : Result :=
  withChannel ch s fun c =>
    let a := mask 3 alg
    let f := mask 3 fb
    let t := portWrite (route c).1 (chReg s.cfg.regAlgFb c) (fAlgFb a f) s
    finish 4 (setChan c { t.chan c with algorithm := a, feedback := f } t)

/-- SETPAN ch, left, right, ams, pms (R143). -/
def execSetpan (ch left right ams pms : Nat) (s : State) : Result :=
  withChannel ch s fun c =>
    let l := mask1 left
    let r := mask1 right
    let a := mask 2 ams
    let m := mask 3 pms
    let t := portWrite (route c).1 (chReg s.cfg.regPan c) (fPan l r a m) s
    finish 6 (setChan c { t.chan c with left := l, right := r, ams := a, pms := m } t)

/-- `setFrequency(c, b, n)` (R146): freq-hi first, freq-lo second (R147), then the shadow. -/
def setFrequency (c : Fin 6) (block : BitVec 3) (fnum : BitVec 11) (s : State) : State :=
  let hi := portWrite (route c).1 (chReg s.cfg.regFreqHi c) (fFreqHi block fnum) s
  let lo := portWrite (route c).1 (chReg s.cfg.regFreqLo c) (fFreqLo fnum) hi
  setChan c { lo.chan c with block := block, fnum := fnum } lo

/-- SETFREQ ch, block, fnum (R146). -/
def execSetfreq (ch block fnum : Nat) (s : State) : Result :=
  withChannel ch s fun c => finish 5 (setFrequency c (mask 3 block) (mask 11 fnum) s)

/-- KEYON ch, mask (R149): one write, always to port 0 (R148). -/
def execKeyon (ch enable : Nat) (s : State) : Result :=
  withChannel ch s fun c => finish 3 (portWrite keyPort s.cfg.regKey (fKey (mask 4 enable) c) s)

/-- KEYOFF ch, mask (R150): the mask is ignored and all four operators are cleared (spec/90_conflicts.md C2). -/
def execKeyoff (ch _enable : Nat) (s : State) : Result :=
  withChannel ch s fun c => finish 3 (portWrite keyPort s.cfg.regKey (fKey 0 c) s)

/-! ### Patch loading -/

/-- One operator's parameters, every byte of the patch masked to its field (R153, R76). -/
def operOfPatch (p : PatchOp) : OpState where
  detune := mask 3 p.detune
  multiply := mask 4 p.multiply
  totalLevel := mask 7 p.totalLevel
  rateScale := mask 2 p.rateScale
  attackRate := mask 5 p.attackRate
  amEnable := mask1 p.amEnable
  decay1Rate := mask 5 p.decay1Rate
  decay2Rate := mask 5 p.decay2Rate
  sustainLevel := mask 4 p.sustainLevel
  releaseRate := mask 4 p.releaseRate
  ssgEg := mask 4 p.ssgEg

/-- The seven register writes of one operator, in the order of R153, then its shadow. -/
def loadOper (c : Fin 6) (o : Fin 4) (x : OpState) (s : State) : State :=
  let p := (route c).1
  let s1 := portWrite p (opReg s.cfg.regDtMul c o) (fDtMul x.detune x.multiply) s
  let s2 := portWrite p (opReg s.cfg.regTl c o) (fTl x.totalLevel) s1
  let s3 := portWrite p (opReg s.cfg.regRsAr c o) (fRsAr x.rateScale x.attackRate) s2
  let s4 := portWrite p (opReg s.cfg.regAmD1r c o) (fAmD1r x.amEnable x.decay1Rate) s3
  let s5 := portWrite p (opReg s.cfg.regD2r c o) (fD2r x.decay2Rate) s4
  let s6 := portWrite p (opReg s.cfg.regD1lRr c o) (fD1lRr x.sustainLevel x.releaseRate) s5
  let s7 := portWrite p (opReg s.cfg.regSsgEg c o) (fSsgEg x.ssgEg) s6
  setChan c ((s7.chan c).setOper o x) s7

/-- The pan byte of a patch with its unassigned bit 3 dropped (R153). -/
def panOfPatch (p : Patch) : Byte := mask 8 p.pan &&& 0xF7

/-- LOADPATCH ch, patch (R153): 30 port writes, the operators outside in index order 0, 1, 2, 3. -/
def execLoadpatch (ch : Nat) (patch : Patch) (s : State) : Result :=
  withChannel ch s fun c =>
    let a := mask 3 patch.algorithm
    let f := mask 3 patch.feedback
    let pan := panOfPatch patch
    let w1 := portWrite (route c).1 (chReg s.cfg.regAlgFb c) (fAlgFb a f) s
    let w2 := portWrite (route c).1 (chReg s.cfg.regPan c) pan w1
    let o0 := loadOper c 0 (operOfPatch patch.op0) w2
    let o1 := loadOper c 1 (operOfPatch patch.op1) o0
    let o2 := loadOper c 2 (operOfPatch patch.op2) o1
    let o3 := loadOper c 3 (operOfPatch patch.op3) o2
    finish 49
      (setChan c
        { o3.chan c with
          algorithm := a
          feedback := f
          left := pan.getLsbD 7
          right := pan.getLsbD 6
          ams := pan.extractLsb' 4 2
          pms := pan.extractLsb' 0 3 } o3)

/-! ### Total level and carrier -/

/-- `setTotalLevel(c, o, t)` (R157). -/
def setTotalLevel (c : Fin 6) (o : Fin 4) (level : BitVec 7) (s : State) : State :=
  let t := portWrite (route c).1 (opReg s.cfg.regTl c o) (fTl level) s
  setChan c ((t.chan c).setOper o { (t.chan c).oper o with totalLevel := level }) t

/-- SETTL ch, op, tl (R157). -/
def execSettl (ch op tl : Nat) (s : State) : Result :=
  withChannel ch s fun c => withOperator op s fun o => finish 4 (setTotalLevel c o (mask 7 tl) s)

/-- SETCARRIER ch, op (R158): no bus access. -/
def execSetcarrier (ch op : Nat) (s : State) : Result :=
  withChannel ch s fun c => withOperator op s fun o =>
    finish 3 (setChan c { s.chan c with carrier := o } s)

/-! ### Read accessors: the shadow state, never the chip -/

/-- GETFREQ ch (R160). -/
def execGetfreq (ch : Nat) (s : State) : Result :=
  withChannel ch s fun c => finish 2 (respond (freqBytes (s.chan c).block (s.chan c).fnum) s)

/-- GETVOL ch (R161): the envelope's current volume. -/
def execGetvol (ch : Nat) (s : State) : Result :=
  withChannel ch s fun c => finish 2 (respond [(s.envOf c).current.setWidth 8] s)

/-- One operator's eleven bytes of a patch record, unused bits zero (R76, R162). -/
def operBytes (x : OpState) : List Byte :=
  [x.detune.setWidth 8, x.multiply.setWidth 8, x.totalLevel.setWidth 8, x.rateScale.setWidth 8,
    x.attackRate.setWidth 8, bit x.amEnable, x.decay1Rate.setWidth 8, x.decay2Rate.setWidth 8,
    x.sustainLevel.setWidth 8, x.releaseRate.setWidth 8, x.ssgEg.setWidth 8]

/-- The 47-byte patch record of a channel's shadow (R162). -/
def patchBytes (x : ChState) : List Byte :=
  [x.algorithm.setWidth 8, x.feedback.setWidth 8, fPan x.left x.right x.ams x.pms] ++ operBytes (x.oper 0) ++
    operBytes (x.oper 1) ++ operBytes (x.oper 2) ++ operBytes (x.oper 3)

/-- GETPATCH ch (R162). -/
def execGetpatch (ch : Nat) (s : State) : Result :=
  withChannel ch s fun c => finish 2 (respond (patchBytes (s.chan c)) s)

end Sys2Proof.Machine
end

