-- ==== Sys2Proof/Machine/Dac.lean ====
section
/-! DEFINITION. The DAC Sample Player, spec/45_dac.md: DACEN, DACDIS, PLAYBUF. Its registers are on port 0 (R230). -/

namespace Sys2Proof.Machine

/-- DACEN (R231). -/
def execDacen (s : State) : Result := finish 1 (portWrite .p0 s.cfg.regDacEn s.cfg.dacEnOn s)

/-- DACDIS (R232). -/
def execDacdis (s : State) : Result := finish 1 (portWrite .p0 s.cfg.regDacEn s.cfg.dacEnOff s)

/-- PLAYBUF's loop (R233): each sample a full port write, then the wait, the last sample's included. -/
def playSamples (div : BitVec 16) : List Nat → State → State
  | [], s => s
  | x :: xs, s => playSamples div xs (emit (.swait div) (portWrite .p0 s.cfg.regDacData (mask 8 x) s))

/-- PLAYBUF div, samples (R233): the whole buffer is one command. `len` is the number of samples, a value operand masked to
16 bits (R73), and the first `len` samples are played. -/
def execPlaybuf (div : Nat) (samples : List Nat) (s : State) : Result :=
  finish (5 + bufferLen samples) (playSamples (mask 16 div) (samples.take (bufferLen samples)) s)

/-- What the divisor `n` adds to the wait of the divisor before it. -/
def waitStep (w : DacWait) (n : Nat) : Nat :=
  match w with
  | .unstated => Config.freeWaitStep n
  | .steps amounts => amounts[n]?.getD 0

/-- `DAC_WAIT(div)` (R9, R233): the duration an event `SWAIT(div)` stands for. No command reads it (R330). -/
def dacWait (k : Config) (div : BitVec 16) : Nat := ((List.range (div.toNat + 1)).map (waitStep k.dacWait)).sum

end Sys2Proof.Machine
end

