-- ==== Sys2Proof/Machine/Flags.lean ====
section
/-! DEFINITION. The one-bit results of spec/10_state.md R36. The driver has no condition-code register; the flags are three
bits of the status byte, `changed` and `reached`, each of which becomes one response byte (R16). The busy flag stands in
Machine/Ops.lean, which the settle needs. -/

namespace Sys2Proof.Machine

/-- A boolean result as a response byte, 0x00 or 0x01 (R16). -/
def boolByte (b : Bool) : Byte := if b then 1 else 0

/-- Timer A's overflow flag of a status byte: `s[ST_TA_BIT]` (R36, R250). -/
def timerAFlag (k : Config) (b : Byte) : Bool := b.getLsbD k.taBit

/-- Timer B's overflow flag of a status byte: `s[ST_TB_BIT]` (R36, R251). -/
def timerBFlag (k : Config) (b : Byte) : Bool := b.getLsbD k.tbBit

/-- A query of one bit of the status byte: one status read, the tested bit as the response (R105, R250, R251). -/
def statusQuery (flag : Config → Byte → Bool) (s : State) : State :=
  respond [boolByte (flag s.cfg (nextStatus s))] (memRead s)

end Sys2Proof.Machine
end

