-- ==== Sys2Proof/Machine/Envelope.lean ====
section
/-! DEFINITION. The Software Envelope Engine, spec/43_envelope.md: ENVATTACK, ENVRELEASE, ENVTICK, ENVRESET, ENVUPD, and the
procedures `envTick` and `envUpdate`. -/

namespace Sys2Proof.Machine

/-- One unit toward the target (R184): the scale is inverted, so counting down is toward louder. -/
def stepToward (current target : BitVec 7) : BitVec 7 :=
  if target < current then current - 1 else if current < target then current + 1 else current

/-- One tick of one envelope (R184): its next state and `changed`. "Reaches" is read as `>=`, and the end of the ramp is
tested only on a tick that steps. -/
def tickEnv (e : EnvState) : EnvState × Bool :=
  if e.active then
    if e.speed ≤ e.counter + 1 then
      let current := stepToward e.current e.target
      ({ e with counter := 0, current := current, active := current != e.target }, current != e.current)
    else ({ e with counter := e.counter + 1 }, false)
  else (e, false)

/-- `envTick(c)` (R184): the state after it. -/
def envTick (c : Fin 6) (s : State) : State := setEnv c (tickEnv (s.envOf c)).1 s

/-- `envTick(c)` (R184): whether the volume changed. -/
def envChanged (c : Fin 6) (s : State) : Bool := (tickEnv (s.envOf c)).2

/-- `envUpdate(c)` (R189): the tick, and the carrier's total level written if the volume changed; it returns
`envChanged c s`. -/
def envUpdate (c : Fin 6) (s : State) : State :=
  let t := envTick c s
  if envChanged c s then setTotalLevel c (t.chan c).carrier (t.envOf c).current t else t

/-- ENVATTACK ch, target, speed (R181): `current` is untouched. -/
def execEnvattack (ch target speed : Nat) (s : State) : Result :=
  withChannel ch s fun c => withEnvSpeed speed s fun sp =>
    finish 4
      (setEnv c { s.envOf c with target := mask 7 target, speed := sp, counter := 0, active := true } s)

/-- ENVRELEASE ch, speed (R182): `counter` is kept (R319). -/
def execEnvrelease (ch speed : Nat) (s : State) : Result :=
  withChannel ch s fun c => withEnvSpeed speed s fun sp =>
    finish 3 (setEnv c { s.envOf c with target := 127, speed := sp, active := true } s)

/-- ENVTICK ch (R183). -/
def execEnvtick (ch : Nat) (s : State) : Result :=
  withChannel ch s fun c => finish 2 (respond [boolByte (envChanged c s)] (envTick c s))

/-- ENVRESET ch (R188). -/
def execEnvreset (ch : Nat) (s : State) : Result :=
  withChannel ch s fun c =>
    finish 2 (setEnv c { current := 127, target := 127, speed := 1, counter := 0, active := false } s)

/-- ENVUPD ch (R189). -/
def execEnvupd (ch : Nat) (s : State) : Result :=
  withChannel ch s fun c => finish 2 (respond [boolByte (envChanged c s)] (envUpdate c s))

end Sys2Proof.Machine
end

