-- ==== Sys2Proof/Machine/Vibrato.lean ====
section
/-! DEFINITION. The Vibrato / Pitch-Bend Engine, spec/44_vibrato_pitchbend.md: VIBSET, VIBCLR, VIBTICK, VIBUPD, PBEND, and the
procedures `vibTick` and `vibUpdate`. -/

namespace Sys2Proof.Machine

/-- `TRI(p)` (R204): a triangle of period 64 and peak 16. -/
def triangle (p : BitVec 6) : Int :=
  if p.toNat ≤ 16 then p.toNat else if p.toNat ≤ 48 then 32 - p.toNat else p.toNat - 64

/-- `VIB_OFFSET_TRI(p, d)` (R204): the magnitude scaled and rounded toward zero. -/
def vibOffsetTri (p : BitVec 6) (d : BitVec 4) : Int :=
  (triangle p).sign * (((triangle p).natAbs * d.toNat / 16 : Nat) : Int)

/-- `VIB_OFFSET(p, d)` (R205): the run's offset function. -/
def vibOffset (f : VibOffset) (p : BitVec 6) (d : BitVec 4) : Int :=
  match f with
  | .tri => vibOffsetTri p d
  | .table values => values[16 * p.toNat + d.toNat]'(by omega)

/-- The base plus an offset, clipped to 0..2047 by saturation (R203, spec/90_conflicts.md C8). -/
def clipFnum (base : BitVec 11) (off : Int) : BitVec 11 :=
  BitVec.ofNat 11 (min 2047 (max 0 (base.toNat + off)).toNat)

/-- The phase after one tick: `(phase + speed) mod 64` (R203). -/
def nextPhase (v : VibState) : BitVec 6 := v.phase + v.speed.setWidth 6

/-- `vibTick(c)` (R203): the state after it; only `phase` is written. -/
def vibTick (c : Fin 6) (s : State) : State := setVib c { s.vibOf c with phase := nextPhase (s.vibOf c) } s

/-- `vibTick(c)` (R203): the F-number it returns, from the phase already advanced; the block is `baseBlock`. -/
def vibFnum (c : Fin 6) (s : State) : BitVec 11 :=
  clipFnum (s.vibOf c).baseFnum (vibOffset s.cfg.vibOffset (nextPhase (s.vibOf c)) (s.vibOf c).depth)

/-- `vibUpdate(c)` (R208): the tick, and its frequency written; it returns `baseBlock` and `vibFnum c s`. -/
def vibUpdate (c : Fin 6) (s : State) : State := setFrequency c (s.vibOf c).baseBlock (vibFnum c s) (vibTick c s)

/-- VIBSET ch, block, fnum, depth, speed (R200): the phase starts at 0. -/
def execVibset (ch block fnum depth speed : Nat) (s : State) : Result :=
  withChannel ch s fun c => withVibSpeed speed s fun sp =>
    finish 7
      (setVib c
        { present := true, baseBlock := mask 3 block, baseFnum := mask 11 fnum, depth := mask 4 depth,
          speed := sp, phase := 0 } s)

/-- VIBCLR ch (R201). -/
def execVibclr (ch : Nat) (s : State) : Result :=
  withChannel ch s fun c =>
    finish 2
      (setVib c { present := false, baseBlock := 0, baseFnum := 0, depth := 0, speed := 1, phase := 0 } s)

/-- VIBTICK ch (R202): no bus access. -/
def execVibtick (ch : Nat) (s : State) : Result :=
  withChannel ch s fun c =>
    withVibrato c s (finish 2 (respond (freqBytes (s.vibOf c).baseBlock (vibFnum c s)) (vibTick c s)))

/-- VIBUPD ch (R208). -/
def execVibupd (ch : Nat) (s : State) : Result :=
  withChannel ch s fun c =>
    withVibrato c s (finish 2 (respond (freqBytes (s.vibOf c).baseBlock (vibFnum c s)) (vibUpdate c s)))

/-- The next value of a pitch bend (R210): from `c` toward `t` by at most `d` units. -/
def bendNext (c t d : Nat) : Nat := if c < t then c + min d (t - c) else if t < c then c - min d (c - t) else c

/-- PBEND cur, tgt, spd (R210): the operands masked to PB_WIDTH; no state is read or written. -/
def execPbend (cur tgt spd : Nat) (s : State) : Result :=
  let w := s.cfg.pbWidth
  let next := bendNext (cur % 2 ^ w) (tgt % 2 ^ w) (spd % 2 ^ w)
  finish 7 (respond (bendBytes next ++ [boolByte (next == tgt % 2 ^ w)]) s)

end Sys2Proof.Machine
end

