-- ==== Sys2Proof/Machine/Frame.lean ====
section
/-! DEFINITION. The per-frame tick, spec/47_frame_tick.md: FRAME. -/

namespace Sys2Proof.Machine

/-- One channel's part of a frame (R265): the envelope, then the vibrato if there is one; results discarded. -/
def frameChannel (c : Fin 6) (s : State) : State :=
  let t := envUpdate c s
  if (t.vibOf c).present then vibUpdate c t else t

/-- The channels in the order of R265. -/
def frameOrder : List (Fin 6) := [0, 1, 2, 3, 4, 5]

/-- FRAME (R265): no response bytes; a channel without a vibrato state is skipped, not refused. -/
def execFrame (s : State) : Result := finish 1 (frameOrder.foldl (fun t c => frameChannel c t) s)

end Sys2Proof.Machine
end

