-- ==== Sys2Proof/Machine/PortDriver.lean ====
section
/-! DEFINITION. The Port Driver's commands, spec/40_port_driver.md: WRITE and BUSYQ. -/

namespace Sys2Proof.Machine

/-- WRITE port, reg, val (R101). The shadow state is not touched (R320). -/
def execWrite (port reg val : Nat) (s : State) : Result :=
  withPort port s fun p => finish 4 (portWrite p (mask 8 reg) (mask 8 val) s)

/-- BUSYQ (R105): one status read, no retry, no cap. -/
def execBusyq (s : State) : Result := finish 1 (statusQuery busyFlag s)

end Sys2Proof.Machine
end

