-- ==== Sys2Proof/Machine/Timer.lean ====
section
/-! DEFINITION. Timer Control, spec/46_timer.md: SETTMRA, SETTMRB, TMRSTART, TMRSTOP, TMRAOVF, TMRBOVF. Its registers are on
port 0 (R245); the timers themselves are inside the chip (spec/00_scope.md R5 (d)). -/

namespace Sys2Proof.Machine

/-- SETTMRA val (R246): the high part first. -/
def execSettmra (val : Nat) (s : State) : Result :=
  let v := mask 10 val
  let hi := portWrite .p0 s.cfg.regTmrAHi (fTmrAHi v) s
  finish 3 (portWrite .p0 s.cfg.regTmrALo (fTmrALo v) hi)

/-- SETTMRB val (R247). -/
def execSettmrb (val : Nat) (s : State) : Result :=
  finish 2 (portWrite .p0 s.cfg.regTmrB (fTmrB (mask 8 val)) s)

/-- TMRSTART flags (R248): the byte is passed through; also the caller's acknowledge write. -/
def execTmrstart (flags : Nat) (s : State) : Result :=
  finish 2 (portWrite .p0 s.cfg.regTmrCtrl (fTmrCtrl (mask 8 flags)) s)

/-- TMRSTOP (R249). -/
def execTmrstop (s : State) : Result := finish 1 (portWrite .p0 s.cfg.regTmrCtrl s.cfg.tmrStopValue s)

/-- TMRAOVF (R250): one status read; reading does not clear the flag. -/
def execTmraovf (s : State) : Result := finish 1 (statusQuery timerAFlag s)

/-- TMRBOVF (R251). -/
def execTmrbovf (s : State) : Result := finish 1 (statusQuery timerBFlag s)

end Sys2Proof.Machine
end

