-- ==== Sys2Proof/Machine/Dispatch.lean ====
section
/-! DEFINITION. One arm per command: its meaning. -/

namespace Sys2Proof.Machine

def exec (i : Instr) (s : State) : Host.Outcome State Fault Refusal :=
  match i with
  | .write port reg val => Sys2Proof.Machine.execWrite port reg val s
  | .busyq => Sys2Proof.Machine.execBusyq s
  | .regofs op => Sys2Proof.Machine.execRegofs op s
  | .chroute ch => Sys2Proof.Machine.execChroute ch s
  | .opmap ch op => Sys2Proof.Machine.execOpmap ch op s
  | .setalg ch alg fb => Sys2Proof.Machine.execSetalg ch alg fb s
  | .setpan ch left right ams pms => Sys2Proof.Machine.execSetpan ch left right ams pms s
  | .setfreq ch block fnum => Sys2Proof.Machine.execSetfreq ch block fnum s
  | .keyon ch mask => Sys2Proof.Machine.execKeyon ch mask s
  | .keyoff ch mask => Sys2Proof.Machine.execKeyoff ch mask s
  | .loadpatch ch patch => Sys2Proof.Machine.execLoadpatch ch patch s
  | .settl ch op tl => Sys2Proof.Machine.execSettl ch op tl s
  | .setcarrier ch op => Sys2Proof.Machine.execSetcarrier ch op s
  | .getfreq ch => Sys2Proof.Machine.execGetfreq ch s
  | .getvol ch => Sys2Proof.Machine.execGetvol ch s
  | .getpatch ch => Sys2Proof.Machine.execGetpatch ch s
  | .envattack ch target speed => Sys2Proof.Machine.execEnvattack ch target speed s
  | .envrelease ch speed => Sys2Proof.Machine.execEnvrelease ch speed s
  | .envtick ch => Sys2Proof.Machine.execEnvtick ch s
  | .envreset ch => Sys2Proof.Machine.execEnvreset ch s
  | .envupd ch => Sys2Proof.Machine.execEnvupd ch s
  | .vibset ch block fnum depth speed => Sys2Proof.Machine.execVibset ch block fnum depth speed s
  | .vibclr ch => Sys2Proof.Machine.execVibclr ch s
  | .vibtick ch => Sys2Proof.Machine.execVibtick ch s
  | .vibupd ch => Sys2Proof.Machine.execVibupd ch s
  | .pbend cur tgt spd => Sys2Proof.Machine.execPbend cur tgt spd s
  | .dacen => Sys2Proof.Machine.execDacen s
  | .dacdis => Sys2Proof.Machine.execDacdis s
  | .playbuf div samples => Sys2Proof.Machine.execPlaybuf div samples s
  | .settmra val => Sys2Proof.Machine.execSettmra val s
  | .settmrb val => Sys2Proof.Machine.execSettmrb val s
  | .tmrstart flags => Sys2Proof.Machine.execTmrstart flags s
  | .tmrstop => Sys2Proof.Machine.execTmrstop s
  | .tmraovf => Sys2Proof.Machine.execTmraovf s
  | .tmrbovf => Sys2Proof.Machine.execTmrbovf s
  | .frame => Sys2Proof.Machine.execFrame s

end Sys2Proof.Machine
end

