-- ==== Sys2Proof/Machine/Step.lean ====
section
/-! DEFINITION. One step of the machine (spec/30_encoding.md R74): one command from fetch to `cp <- cp + L`, or the end of the
run. -/

namespace Sys2Proof.Machine

/-- One step: nothing once the run is over (R309, notes/assumptions/7.md); otherwise the next packet is decoded and its
command run to its end or refused. -/
def step (s : State) : Host.Outcome State Fault Refusal :=
  if runOver s then .next s
  else
    match fetchDecode s with
    | .ok i => exec i s
    | .error e => refuseDecode e s

/-- `s` with the packet of the opcode table's word `w` stored at `cp` in the command stream, which is where the next step
fetches (notes/assumptions/5.md). -/
def State.withFetchWord (s : State) (nbits w : Nat) : State := loadPacket (tablePacket nbits w) s

end Sys2Proof.Machine
end

