-- ==== Sys2Proof/Safety.lean ====
section
/-! DEFINITION. The terms claims are stated in: what a bus history must look like (the protocol of
spec/40_port_driver.md R101, R102), the state after a list of port writes, the port writes the rules give in plain
arithmetic, a sequence of commands at the abstract level (spec/00_scope.md R6), a completed run
(spec/70_reset_and_hazards.md R309), and the invariant of the state. -/

namespace Sys2Proof.Machine

/-! ### Bus histories -/

/-- The status bytes read in a history, in order. -/
def statusReads (evs : List Event) : List Byte :=
  evs.filterMap fun e => match e with
    | .sr b => some b
    | _ => none

/-- The bytes written to the port locations in a history, in order (R34: what the contract is about). -/
def busWrites (evs : List Event) : List (Loc × Byte) :=
  evs.filterMap fun e => match e with
    | .w l v => some (l, v)
    | _ => none

/-- How many settles of a history exhausted their cap. -/
def capCount (evs : List Event) : Nat := evs.countP fun e => e == .capx

/-- What one settle leaves in the history (R102): in FIXED mode one delay marker; in POLL mode fewer than BUSY_CAP busy
answers and then a ready one, or BUSY_CAP busy answers and the cap event. -/
def SettleEvents (k : Config) (evs : List Event) : Prop :=
  match k.settleMode with
  | .fixed => evs = [.settle k.settleIter]
  | .poll =>
    (∃ (busy : List Byte) (ready : Byte), busy.length < k.busyCap ∧ (∀ b ∈ busy, b.getLsbD k.busyBit = true) ∧
      ready.getLsbD k.busyBit = false ∧ evs = busy.map .sr ++ [.sr ready]) ∨
    (∃ busy : List Byte, busy.length = k.busyCap ∧ (∀ b ∈ busy, b.getLsbD k.busyBit = true) ∧
      evs = busy.map .sr ++ [.capx])

/-- What the port write of one (port, register, value) triple leaves in the history (R101): address byte, settle, data
byte, settle. -/
def PortWriteEvents (k : Config) (w : Port × Byte × Byte) (evs : List Event) : Prop :=
  ∃ s1 s2, SettleEvents k s1 ∧ SettleEvents k s2 ∧
    evs = [.w (addrLoc w.1) w.2.1] ++ s1 ++ [.w (dataLoc w.1) w.2.2] ++ s2

/-- What a list of port writes leaves in the history, one after another (R59). -/
def WriteEvents (k : Config) : List (Port × Byte × Byte) → List Event → Prop
  | [], evs => evs = []
  | w :: ws, evs => ∃ e1 e2, PortWriteEvents k w e1 ∧ WriteEvents k ws e2 ∧ evs = e1 ++ e2

/-- What PLAYBUF leaves in the history (R233): each sample's port write, then its wait marker. -/
def PlayEvents (k : Config) (div : BitVec 16) : List Byte → List Event → Prop
  | [], evs => evs = []
  | x :: xs, evs => ∃ e1 e2, PortWriteEvents k (.p0, k.regDacData, x) e1 ∧ PlayEvents k div xs e2 ∧
      evs = e1 ++ [.swait div] ++ e2

/-- A history every piece of which is a whole port write, a wait marker, or a status read of a query. -/
inductive ProtocolEvents (k : Config) : List Event → Prop
  | nil : ProtocolEvents k []
  | write {w e1 e2} : PortWriteEvents k w e1 → ProtocolEvents k e2 → ProtocolEvents k (e1 ++ e2)
  | wait {d e2} : ProtocolEvents k e2 → ProtocolEvents k (.swait d :: e2)
  | query {b e2} : ProtocolEvents k e2 → ProtocolEvents k (.sr b :: e2)

/-- The chip's `n`-th answer from the state `s` on, counted from 0: the listed one, or a free value (R56). -/
def answer (s : State) (n : Nat) : Byte := s.oracle.getD n (Config.freeStatus (s.reads + n))

/-- The status reads of the history are the chip's answers, in the order they are consumed (R56, R59 (d)). -/
def Answered (s : State) (evs : List Event) : Prop :=
  statusReads evs = (List.range (statusReads evs).length).map (answer s)

/-- `s` with the history extended by `evs`: the answers consumed, the cap events counted (saturating, R35), nothing else
changed. -/
def busAfter (s : State) (evs : List Event) : State :=
  { s with
    trace := s.trace ++ evs
    reads := s.reads + (statusReads evs).length
    oracle := s.oracle.drop (statusReads evs).length
    capx := BitVec.ofNat 32 (min (s.capx.toNat + capCount evs) 0xFFFFFFFF) }

/-- `u` is `s` after exactly the port writes `ws`, in order, every byte followed by its settle, and nothing else. -/
def AfterWrites (s : State) (ws : List (Port × Byte × Byte)) (u : State) : Prop :=
  ∃ evs, WriteEvents s.cfg ws evs ∧ Answered s evs ∧ u = busAfter s evs

/-- Two states whose bus side is the same: history, answers, counters. -/
def SameBus (s t : State) : Prop :=
  t.trace = s.trace ∧ t.oracle = s.oracle ∧ t.reads = s.reads ∧ t.capx = s.capx

/-! ### The port writes of the rules, in plain arithmetic -/

/-- The write of value `v` to the per-channel register with base `base` of channel `c`: port `c div 3`, number
`base + c mod 3` (R121, R124). -/
def chanWrite (c : Fin 6) (base : Byte) (v : Nat) : Port × Byte × Byte :=
  (if c.val < 3 then .p0 else .p1, regNumber (base.toNat + c.val % 3), BitVec.ofNat 8 v)

/-- The write of value `v` to the per-operator register with base `base` of operator `o` of channel `c`: number
`base + (bit 0 of o) * 8 + (bit 1 of o) * 4 + c mod 3` (R120, R125). -/
def operWrite (c : Fin 6) (o : Fin 4) (base : Byte) (v : Nat) : Port × Byte × Byte :=
  (if c.val < 3 then .p0 else .p1, regNumber (base.toNat + (o.val % 2 * 8 + o.val / 2 * 4) + c.val % 3),
    BitVec.ofNat 8 v)

/-- The two writes of a frequency, high byte before low byte (R146). -/
def freqWrites (k : Config) (c : Fin 6) (block fnum : Nat) : List (Port × Byte × Byte) :=
  [chanWrite c k.regFreqHi (block * 8 + fnum / 256), chanWrite c k.regFreqLo (fnum % 256)]

/-- The seven writes of one operator of a patch (R154). -/
def patchOpWrites (k : Config) (c : Fin 6) (o : Fin 4) (p : PatchOp) : List (Port × Byte × Byte) :=
  [operWrite c o k.regDtMul (p.detune % 8 * 16 + p.multiply % 16),
    operWrite c o k.regTl (p.totalLevel % 128),
    operWrite c o k.regRsAr (p.rateScale % 4 * 64 + p.attackRate % 32),
    operWrite c o k.regAmD1r (p.amEnable % 2 * 128 + p.decay1Rate % 32),
    operWrite c o k.regD2r (p.decay2Rate % 32),
    operWrite c o k.regD1lRr (p.sustainLevel % 16 * 16 + p.releaseRate % 16),
    operWrite c o k.regSsgEg (p.ssgEg % 16)]

/-- The 30 writes of a patch (R154). -/
def patchWrites (k : Config) (c : Fin 6) (p : Patch) : List (Port × Byte × Byte) :=
  [chanWrite c k.regAlgFb (p.feedback % 8 * 8 + p.algorithm % 8),
    chanWrite c k.regPan (p.pan % 256 / 16 * 16 + p.pan % 8)] ++
    patchOpWrites k c 0 p.op0 ++ patchOpWrites k c 1 p.op1 ++ patchOpWrites k c 2 p.op2 ++
    patchOpWrites k c 3 p.op3

/-- The shadow of an operator after a patch (R153). -/
def patchOpShadow (p : PatchOp) : OpState where
  detune := BitVec.ofNat 3 p.detune
  multiply := BitVec.ofNat 4 p.multiply
  totalLevel := BitVec.ofNat 7 p.totalLevel
  rateScale := BitVec.ofNat 2 p.rateScale
  attackRate := BitVec.ofNat 5 p.attackRate
  amEnable := p.amEnable % 2 == 1
  decay1Rate := BitVec.ofNat 5 p.decay1Rate
  decay2Rate := BitVec.ofNat 5 p.decay2Rate
  sustainLevel := BitVec.ofNat 4 p.sustainLevel
  releaseRate := BitVec.ofNat 4 p.releaseRate
  ssgEg := BitVec.ofNat 4 p.ssgEg

/-- The shadow of a channel after a patch; `block`, `fnum` and `carrier` stay (R153). -/
def patchShadow (x : ChState) (p : Patch) : ChState :=
  { x with
    algorithm := BitVec.ofNat 3 p.algorithm
    feedback := BitVec.ofNat 3 p.feedback
    left := p.pan / 128 % 2 == 1
    right := p.pan / 64 % 2 == 1
    ams := BitVec.ofNat 2 (p.pan / 16)
    pms := BitVec.ofNat 3 p.pan
    op := #v[patchOpShadow p.op0, patchOpShadow p.op1, patchOpShadow p.op2, patchOpShadow p.op3] }

/-- One operator's shadow as its eleven bytes of a patch record (R76, R162). -/
def shadowOpBytes (x : OpState) : List Byte :=
  [BitVec.ofNat 8 x.detune.toNat, BitVec.ofNat 8 x.multiply.toNat, BitVec.ofNat 8 x.totalLevel.toNat,
    BitVec.ofNat 8 x.rateScale.toNat, BitVec.ofNat 8 x.attackRate.toNat, BitVec.ofNat 8 x.amEnable.toNat,
    BitVec.ofNat 8 x.decay1Rate.toNat, BitVec.ofNat 8 x.decay2Rate.toNat, BitVec.ofNat 8 x.sustainLevel.toNat,
    BitVec.ofNat 8 x.releaseRate.toNat, BitVec.ofNat 8 x.ssgEg.toNat]

/-- A channel's shadow as a patch record (R76, R162). -/
def shadowBytes (x : ChState) : List Byte :=
  [BitVec.ofNat 8 x.algorithm.toNat, BitVec.ofNat 8 x.feedback.toNat,
    BitVec.ofNat 8 (x.left.toNat * 128 + x.right.toNat * 64 + x.ams.toNat * 16 + x.pms.toNat)] ++
    shadowOpBytes x.op[0] ++ shadowOpBytes x.op[1] ++ shadowOpBytes x.op[2] ++ shadowOpBytes x.op[3]

/-- One operator's bytes of a patch record with every unused bit cleared (R76). -/
def maskedPatchOpBytes (p : PatchOp) : List Byte :=
  [BitVec.ofNat 8 (p.detune % 8), BitVec.ofNat 8 (p.multiply % 16), BitVec.ofNat 8 (p.totalLevel % 128),
    BitVec.ofNat 8 (p.rateScale % 4), BitVec.ofNat 8 (p.attackRate % 32), BitVec.ofNat 8 (p.amEnable % 2),
    BitVec.ofNat 8 (p.decay1Rate % 32), BitVec.ofNat 8 (p.decay2Rate % 32), BitVec.ofNat 8 (p.sustainLevel % 16),
    BitVec.ofNat 8 (p.releaseRate % 16), BitVec.ofNat 8 (p.ssgEg % 16)]

/-- A patch record with every unused bit cleared (R76, R162). -/
def maskedPatchBytes (p : Patch) : List Byte :=
  [BitVec.ofNat 8 (p.algorithm % 8), BitVec.ofNat 8 (p.feedback % 8),
    BitVec.ofNat 8 (p.pan % 256 / 16 * 16 + p.pan % 8)] ++ maskedPatchOpBytes p.op0 ++ maskedPatchOpBytes p.op1 ++
    maskedPatchOpBytes p.op2 ++ maskedPatchOpBytes p.op3

/-- A tick of an envelope in plain arithmetic (R184). -/
def EnvTicked (e e' : EnvState) (changed : Bool) : Prop :=
  if e.active = false then e' = e ∧ changed = false
  else if e.counter + 1 < e.speed then
    changed = false ∧ e'.counter = e.counter + 1 ∧ e'.current = e.current ∧ e'.active = true ∧
      e'.target = e.target ∧ e'.speed = e.speed
  else
    e'.counter = 0 ∧ e'.target = e.target ∧ e'.speed = e.speed ∧
      e'.current.toNat =
        (if e.target.toNat < e.current.toNat then e.current.toNat - 1
          else if e.current.toNat < e.target.toNat then e.current.toNat + 1 else e.current.toNat) ∧
      (e'.active = false ↔ e'.current = e'.target) ∧ (changed = false ↔ e'.current = e.current)

/-- The frequency number of a vibrato tick in plain arithmetic (R203): the base plus the offset at the phase already
advanced, saturated to 0..2047. -/
def vibratoFnum (f : VibOffset) (v : VibState) : Int :=
  max 0 (min 2047 ((v.baseFnum.toNat : Int) +
    vibOffset f (BitVec.ofNat 6 (v.phase.toNat + v.speed.toNat)) v.depth))

/-! ### Commands by kind -/

/-- A command's `ch` operand, if it has one (R71). -/
def channelOperand : Instr → Option Nat
  | .write _ _ _ => none
  | .busyq => none
  | .regofs _ => none
  | .chroute ch => some ch
  | .opmap ch _ => some ch
  | .setalg ch _ _ => some ch
  | .setpan ch _ _ _ _ => some ch
  | .setfreq ch _ _ => some ch
  | .keyon ch _ => some ch
  | .keyoff ch _ => some ch
  | .loadpatch ch _ => some ch
  | .settl ch _ _ => some ch
  | .setcarrier ch _ => some ch
  | .getfreq ch => some ch
  | .getvol ch => some ch
  | .getpatch ch => some ch
  | .envattack ch _ _ => some ch
  | .envrelease ch _ => some ch
  | .envtick ch => some ch
  | .envreset ch => some ch
  | .envupd ch => some ch
  | .vibset ch _ _ _ _ => some ch
  | .vibclr ch => some ch
  | .vibtick ch => some ch
  | .vibupd ch => some ch
  | .pbend _ _ _ => none
  | .dacen => none
  | .dacdis => none
  | .playbuf _ _ => none
  | .settmra _ => none
  | .settmrb _ => none
  | .tmrstart _ => none
  | .tmrstop => none
  | .tmraovf => none
  | .tmrbovf => none
  | .frame => none

/-- How many response bytes a command appends to `OUT`: the "resp" column of R71. -/
def responseBytes : Instr → Nat
  | .busyq => 1
  | .regofs _ => 1
  | .chroute _ => 2
  | .opmap _ _ => 3
  | .getfreq _ => 3
  | .getvol _ => 1
  | .getpatch _ => 47
  | .envtick _ => 1
  | .envupd _ => 1
  | .vibtick _ => 3
  | .vibupd _ => 3
  | .pbend _ _ _ => 3
  | .tmraovf => 1
  | .tmrbovf => 1
  | _ => 0

/-- The three commands that are one status read and its answer (R105, R250, R251). -/
def statusQueryCommand : Instr → Bool
  | .busyq => true
  | .tmraovf => true
  | .tmrbovf => true
  | _ => false

/-- The commands that make no bus access (the "no bus access" of R120 to R122, R158, R160 to R162, R181 to R183, R188,
R200 to R202, R210). -/
def busFree : Instr → Bool
  | .regofs _ => true
  | .chroute _ => true
  | .opmap _ _ => true
  | .setcarrier _ _ => true
  | .getfreq _ => true
  | .getvol _ => true
  | .getpatch _ => true
  | .envattack _ _ _ => true
  | .envrelease _ _ => true
  | .envtick _ => true
  | .envreset _ => true
  | .vibset _ _ _ _ _ => true
  | .vibclr _ => true
  | .vibtick _ => true
  | .pbend _ _ _ => true
  | _ => false

/-- R71's table: each opcode with its packet length, PLAYBUF (0x62) with its header's. -/
def opcodeLengths : List (Nat × Nat) :=
  [(0x10, 4), (0x11, 1), (0x20, 2), (0x21, 2), (0x22, 3), (0x30, 4), (0x31, 6), (0x32, 5), (0x33, 3), (0x34, 3)] ++
  [(0x35, 49), (0x36, 4), (0x37, 3), (0x38, 2), (0x39, 2), (0x3A, 2), (0x40, 4), (0x41, 3), (0x42, 2), (0x43, 2)] ++
  [(0x44, 2), (0x50, 7), (0x51, 2), (0x52, 2), (0x53, 2), (0x54, 7), (0x60, 1), (0x61, 1), (0x62, 5), (0x70, 3)] ++
  [(0x71, 2), (0x72, 2), (0x73, 1), (0x74, 1), (0x75, 1), (0x7F, 1)]

/-- The commands a FRAME in state `s` stands for (R265): ENVUPD of every channel and VIBUPD of every channel that has a
vibrato state, in channel order. -/
def frameCommands (s : State) : List Instr :=
  (List.finRange 6).flatMap fun c =>
    .envupd c.val :: if (s.vibOf c).present then [.vibupd c.val] else []

/-- Two states that differ at most in how settles wait and in what the chip has answered and will answer: the same
command pointer, stream, tables and parameters but for SETTLE_MODE, SETTLE_ITER and BUSY_CAP. -/
def AlikeButForStatus (s t : State) : Prop :=
  s.cp = t.cp ∧ s.stream = t.stream ∧ s.ch = t.ch ∧ s.env = t.env ∧ s.vib = t.vib ∧
    { s.cfg with settleMode := t.cfg.settleMode, settleIter := t.cfg.settleIter, busyCap := t.cfg.busyCap } = t.cfg

/-! ### Sequences of commands and completed runs -/

/-- Commands at the abstract level, one after another (R6), stopping at the first refusal. -/
def execAll : List Instr → State → Result
  | [], s => .next s
  | i :: is, s =>
    match exec i s with
    | .next t => execAll is t
    | .fault f => .fault f
    | .refused r => .refused r

/-- The packets of a sequence of commands. -/
def encodeAll (is : List Instr) : List Byte := is.flatMap encode

/-- The state check of VIBTICK and VIBUPD (R202, R208): their channel has a vibrato state. -/
def Ready (i : Instr) (s : State) : Prop :=
  match i with
  | .vibtick ch => ∀ c : Fin 6, c.val = ch → (s.vibOf c).present = true
  | .vibupd ch => ∀ c : Fin 6, c.val = ch → (s.vibOf c).present = true
  | _ => True

/-- What can be observed of a completed run (R309). -/
structure Observation where
  trace : List Event
  out : List Byte
  ch : Vector ChState 6
  env : Vector EnvState 6
  vib : Vector VibState 6
  capx : BitVec 32
  deriving DecidableEq, Repr

/-- The observation of a state. -/
def State.observe (s : State) : Observation :=
  { trace := s.trace, out := s.out, ch := s.ch, env := s.env, vib := s.vib, capx := s.capx }

/-- A completed run (R309): after `n` steps from `s` the whole command stream has been executed and what can be observed
is `o`. A run that meets a refusal is none (R287). -/
def Completes (s : State) (n : Nat) (o : Observation) : Prop :=
  ∃ t, Host.Core.run Sys2Proof.core n s = .next t ∧ runOver t = true ∧ t.observe = o

/-! ### The invariant -/

/-- R26 and R27 of one envelope, with the parameters `k`: `speed` is not 0, `speed` and `counter + 1` are within
ENV_SPEED_WIDTH bits (1 to 255 and 0 to 254 at its default), and an inactive envelope is at its target, with no frames
counted unless it is as RESET_ENV left it. -/
def EnvState.Inv (k : Config) (e : EnvState) : Prop :=
  1 ≤ e.speed ∧ e.speed < 2 ^ k.envSpeedWidth ∧ e.counter + 1 < 2 ^ k.envSpeedWidth ∧
    (e.active = false → e.current = e.target ∧ (e.counter = 0 ∨ e.counter = k.resetEnv.counter))

/-- R29 of one vibrato, with the parameters `k`: `speed` is 1 to 8, and an absent vibrato is as RESET_VIB or VIBCLR left
it. -/
def VibState.Inv (k : Config) (v : VibState) : Prop :=
  1 ≤ v.speed.toNat ∧ v.speed.toNat ≤ 8 ∧ (v.present = false → v = k.resetVib ∨ v = VibState.reset)

/-- The invariant of the machine: the configuration is within its bounds (R9), `cp` lies in the stream (R21), every
envelope and vibrato keeps its own (R26, R27, R29), `capx` counts the history's cap events, saturating (R35), and `reads`
counts its status reads. -/
structure State.Inv (s : State) : Prop where
  cfg : s.cfg.wf = true
  cp : s.cp ≤ s.stream.length
  env : ∀ c, (s.envOf c).Inv s.cfg
  vib : ∀ c, (s.vibOf c).Inv s.cfg
  capx : s.capx.toNat = min (capCount s.trace) 0xFFFFFFFF
  reads : s.reads = (statusReads s.trace).length

end Sys2Proof.Machine
end

