-- ==== Sys2Proof/Certificates/Slice0/Obligations.lean ====
section
/-! DEFINITION. The statements for the provers, from the numbered rules of spec/. A result is stated as the whole next state:
a record update of the state before (or of `u`, the state after exactly the port writes named), so that everything the
update does not name is unchanged. Throughout, the advance of `cp` by the packet's length and the packets themselves are
the spec's decision D20, the refusals its decision D35 (spec/92_eei_decisions.md); where a statement's own rule is a
decision or a derivation the spec marks as its own, its docstring names it. -/

open Sys2Proof Sys2Proof.Machine

/-! ### Port Driver (spec/40_port_driver.md) -/

/-- R101: WRITE is one port write, address byte, settle, data byte, settle, and changes nothing else; a port above 1
is refused. That the shadow stays is decision D12. -/
def Obligations.WriteMakesOnePortWrite : Prop :=
  ∀ (port reg val : Nat) (s : State),
    (port < 2 → ∃ u,
      AfterWrites s [(if port = 0 then .p0 else .p1, BitVec.ofNat 8 reg, BitVec.ofNat 8 val)] u ∧
        exec (.write port reg val) s = .next { u with cp := s.cp + 4 }) ∧
    (2 ≤ port → exec (.write port reg val) s = .refused (.badPort s.cp))

/-- R102, R103: a FIXED settle is one delay marker; a POLL settle makes `n` status reads, between 1 and BUSY_CAP, the last
of them the first that shows ready if one of BUSY_CAP does, makes BUSY_CAP of them exactly when each of the first
BUSY_CAP − 1 showed busy, and records and counts the cap event exactly when all BUSY_CAP showed busy. -/
def Obligations.SettleWaitsByEitherStrategy : Prop :=
  ∀ s : State,
    (s.cfg.settleMode = .fixed → settle s = busAfter s [.settle s.cfg.settleIter]) ∧
    (s.cfg.settleMode = .poll → 1 ≤ s.cfg.busyCap → ∃ n, 1 ≤ n ∧ n ≤ s.cfg.busyCap ∧
      (∀ k, k + 1 < n → (answer s k).getLsbD s.cfg.busyBit = true) ∧
      (n < s.cfg.busyCap → (answer s (n - 1)).getLsbD s.cfg.busyBit = false) ∧
      (n = s.cfg.busyCap ↔ ∀ k, k + 1 < s.cfg.busyCap → (answer s k).getLsbD s.cfg.busyBit = true) ∧
      ((∀ k, k < s.cfg.busyCap → (answer s k).getLsbD s.cfg.busyBit = true) →
        settle s = busAfter s ((List.range n).map (fun k => Event.sr (answer s k)) ++ [.capx])) ∧
      ((∃ k, k < s.cfg.busyCap ∧ (answer s k).getLsbD s.cfg.busyBit = false) →
        settle s = busAfter s ((List.range n).map (fun k => Event.sr (answer s k)))))

/-- R105, R250, R251: BUSYQ, TMRAOVF and TMRBOVF are one status read each, answer its busy, timer A or timer B bit and
change nothing else. The command BUSYQ is decision D33, the response byte and the advance of `cp` decision D20. -/
def Obligations.StatusQueriesAnswerOneBit : Prop :=
  ∀ s : State,
    exec .busyq s = .next { busAfter s [.sr (answer s 0)] with
      cp := s.cp + 1, out := s.out ++ [if (answer s 0).getLsbD s.cfg.busyBit then 1 else 0] } ∧
    exec .tmraovf s = .next { busAfter s [.sr (answer s 0)] with
      cp := s.cp + 1, out := s.out ++ [if (answer s 0).getLsbD s.cfg.taBit then 1 else 0] } ∧
    exec .tmrbovf s = .next { busAfter s [.sr (answer s 0)] with
      cp := s.cp + 1, out := s.out ++ [if (answer s 0).getLsbD s.cfg.tbBit then 1 else 0] }

/-! ### Operator Addressing (spec/41_operator_addressing.md) -/

/-- R120, R121: REGOFS answers 0, 8, 4, 12 for operators 0 to 3; CHROUTE answers the port `ch div 3` and the local index
`ch mod 3`; they change nothing else; an illegal index is refused. The responses and the advance of `cp` are decision D20, the
refusals D35 (notes/assumptions/13.md). -/
def Obligations.RegofsAndChrouteAnswerTheMapping : Prop :=
  ∀ s : State,
    exec (.regofs 0) s = .next { s with cp := s.cp + 2, out := s.out ++ [0] } ∧
    exec (.regofs 1) s = .next { s with cp := s.cp + 2, out := s.out ++ [8] } ∧
    exec (.regofs 2) s = .next { s with cp := s.cp + 2, out := s.out ++ [4] } ∧
    exec (.regofs 3) s = .next { s with cp := s.cp + 2, out := s.out ++ [12] } ∧
    (∀ op, 4 ≤ op → exec (.regofs op) s = .refused (.badOperator s.cp)) ∧
    (∀ c : Fin 6, exec (.chroute c) s = .next { s with
      cp := s.cp + 2, out := s.out ++ [BitVec.ofNat 8 (c.val / 3), BitVec.ofNat 8 (c.val % 3)] }) ∧
    (∀ ch, 6 ≤ ch → exec (.chroute ch) s = .refused (.badChannel s.cp))

/-- R122, R123: OPMAP answers the port, the local index and the operator's offset, which is bit 0 of the index times 8
plus bit 1 times 4; it changes nothing else; an illegal channel is refused before an illegal operator. The command is
decision D20. -/
def Obligations.OpmapAnswersBothMappings : Prop :=
  ∀ s : State,
    (∀ (c : Fin 6) (o : Fin 4), exec (.opmap c o) s = .next { s with
      cp := s.cp + 3,
      out := s.out ++ [BitVec.ofNat 8 (c.val / 3), BitVec.ofNat 8 (c.val % 3),
        BitVec.ofNat 8 (o.val % 2 * 8 + o.val / 2 * 4)] }) ∧
    (∀ ch op, 6 ≤ ch → exec (.opmap ch op) s = .refused (.badChannel s.cp)) ∧
    (∀ (c : Fin 6) (op : Nat), 4 ≤ op → exec (.opmap c op) s = .refused (.badOperator s.cp))

/-! ### Channel Control (spec/42_channel_control.md, the byte formats of spec/30_encoding.md) -/

/-- R80, R82, R83, R84: the algorithm/feedback byte, the two frequency bytes and the key byte as numbers made of their
fields. -/
def Obligations.RegisterBytesPackTheirFields : Prop :=
  (∀ alg fb : BitVec 3, (fAlgFb alg fb).toNat = fb.toNat * 8 + alg.toNat) ∧
  (∀ (block : BitVec 3) (fnum : BitVec 11), (fFreqHi block fnum).toNat = block.toNat * 8 + fnum.toNat / 256) ∧
  (∀ fnum : BitVec 11, (fFreqLo fnum).toNat = fnum.toNat % 256) ∧
  (∀ (enable : BitVec 4) (c : Fin 6),
    (fKey enable c).toNat = enable.toNat * 16 + if c.val < 3 then c.val else c.val - 3 + 4)

/-- R140: SETALG writes `feedback << 3 | algorithm` to the channel's register and records both fields. That the shadow
follows is decision D12. -/
def Obligations.SetalgWritesAndRecords : Prop :=
  ∀ (alg fb : Nat) (s : State),
    (∀ c : Fin 6, ∃ u, AfterWrites s [chanWrite c s.cfg.regAlgFb (fb % 8 * 8 + alg % 8)] u ∧
      exec (.setalg c alg fb) s = .next { u with
        cp := s.cp + 4
        ch := s.ch.set c { s.ch[c] with algorithm := BitVec.ofNat 3 alg, feedback := BitVec.ofNat 3 fb } }) ∧
    (∀ ch, 6 ≤ ch → exec (.setalg ch alg fb) s = .refused (.badChannel s.cp))

/-- R143: SETPAN packs the stereo bits, AMS and PMS into one byte, writes it and records the four fields. That left is
bit 7 is decision D8. -/
def Obligations.SetpanWritesAndRecords : Prop :=
  ∀ (left right ams pms : Nat) (s : State),
    (∀ c : Fin 6, ∃ u,
      AfterWrites s
        [chanWrite c s.cfg.regPan (left % 2 * 128 + right % 2 * 64 + ams % 4 * 16 + pms % 8)] u ∧
      exec (.setpan c left right ams pms) s = .next { u with
        cp := s.cp + 6
        ch := s.ch.set c { s.ch[c] with
          left := left % 2 == 1
          right := right % 2 == 1
          ams := BitVec.ofNat 2 ams
          pms := BitVec.ofNat 3 pms } }) ∧
    (∀ ch, 6 ≤ ch → exec (.setpan ch left right ams pms) s = .refused (.badChannel s.cp))

/-- R146, R147: SETFREQ makes exactly two writes, high byte before low byte, and records block and F-number. -/
def Obligations.SetfreqWritesHighThenLow : Prop :=
  ∀ (block fnum : Nat) (s : State),
    (∀ c : Fin 6, ∃ u,
      AfterWrites s [chanWrite c s.cfg.regFreqHi (block % 8 * 8 + fnum / 256 % 8),
        chanWrite c s.cfg.regFreqLo (fnum % 256)] u ∧
      exec (.setfreq c block fnum) s = .next { u with
        cp := s.cp + 5
        ch := s.ch.set c { s.ch[c] with block := BitVec.ofNat 3 block, fnum := BitVec.ofNat 11 fnum } }) ∧
    (∀ ch, 6 ≤ ch → exec (.setfreq ch block fnum) s = .refused (.badChannel s.cp))

/-- R149: KEYON is one write to the key register on port 0, the mask in the high nibble and the channel select below,
and changes nothing else. The advance of `cp` is decision D20, the refusal D35 (notes/assumptions/13.md). -/
def Obligations.KeyonWritesKeyByteOnPortZero : Prop :=
  ∀ (enable : Nat) (s : State),
    (∀ c : Fin 6, ∃ u,
      AfterWrites s
        [(.p0, s.cfg.regKey, BitVec.ofNat 8 (enable % 16 * 16 + if c.val < 3 then c.val else c.val - 3 + 4))] u ∧
      exec (.keyon c enable) s = .next { u with cp := s.cp + 3 }) ∧
    (∀ ch, 6 ≤ ch → exec (.keyon ch enable) s = .refused (.badChannel s.cp))

/-- R150: KEYOFF is one write to the key register on port 0 with the enable nibble cleared, whatever its mask, and
changes nothing else. Ignoring the mask is decision D9 (spec/90_conflicts.md C2). -/
def Obligations.KeyoffClearsAllFourOperators : Prop :=
  ∀ (enable : Nat) (s : State),
    (∀ c : Fin 6, ∃ u,
      AfterWrites s [(.p0, s.cfg.regKey, BitVec.ofNat 8 (if c.val < 3 then c.val else c.val - 3 + 4))] u ∧
      exec (.keyoff c enable) s = .next { u with cp := s.cp + 3 }) ∧
    (∀ ch, 6 ≤ ch → exec (.keyoff ch enable) s = .refused (.badChannel s.cp))

/-- R153, R154: LOADPATCH makes the 30 writes of R154 in their order and records the masked patch; `block`, `fnum`,
`carrier` and every other state stay. The loop order is decision D10, the dropped pan bit D11, the record's layout
D20. -/
def Obligations.LoadpatchMakesThirtyWrites : Prop :=
  ∀ (p : Patch) (s : State),
    (∀ c : Fin 6, (patchWrites s.cfg c p).length = 30 ∧ ∃ u, AfterWrites s (patchWrites s.cfg c p) u ∧
      exec (.loadpatch c p) s = .next { u with
        cp := s.cp + 49
        ch := s.ch.set c (patchShadow s.ch[c] p) }) ∧
    (∀ ch, 6 ≤ ch → exec (.loadpatch ch p) s = .refused (.badChannel s.cp))

/-- R157: SETTL is one write of the level to the operator's total-level register and records it; the channel is
checked before the operator. The command is decision D13. -/
def Obligations.SettlWritesAndRecords : Prop :=
  ∀ (tl : Nat) (s : State),
    (∀ (c : Fin 6) (o : Fin 4), ∃ u, AfterWrites s [operWrite c o s.cfg.regTl (tl % 128)] u ∧
      exec (.settl c o tl) s = .next { u with
        cp := s.cp + 4
        ch := s.ch.set c { s.ch[c] with
          op := s.ch[c].op.set o { s.ch[c].op[o] with totalLevel := BitVec.ofNat 7 tl } } }) ∧
    (∀ ch op, 6 ≤ ch → exec (.settl ch op tl) s = .refused (.badChannel s.cp)) ∧
    (∀ (c : Fin 6) (op : Nat), 4 ≤ op → exec (.settl c op tl) s = .refused (.badOperator s.cp))

/-- R158, and R12's order of checks: SETCARRIER records the operator index and makes no bus access. The command is
decision D13. -/
def Obligations.SetcarrierRecordsWithoutBusAccess : Prop :=
  ∀ s : State,
    (∀ (c : Fin 6) (o : Fin 4), exec (.setcarrier c o) s = .next { s with
      cp := s.cp + 3, ch := s.ch.set c { s.ch[c] with carrier := o } }) ∧
    (∀ ch op, 6 ≤ ch → exec (.setcarrier ch op) s = .refused (.badChannel s.cp)) ∧
    (∀ (c : Fin 6) (op : Nat), 4 ≤ op → exec (.setcarrier c op) s = .refused (.badOperator s.cp))

/-- R160, R161, R162: GETFREQ answers the shadow's block and F-number, GETVOL the envelope's current volume, GETPATCH the
47-byte record of the shadow; they change nothing else. The accessors are decision D32. -/
def Obligations.AccessorsAnswerTheShadow : Prop :=
  ∀ s : State,
    (∀ c : Fin 6, exec (.getfreq c) s = .next { s with
      cp := s.cp + 2
      out := s.out ++ [BitVec.ofNat 8 s.ch[c].block.toNat, BitVec.ofNat 8 (s.ch[c].fnum.toNat / 256),
        BitVec.ofNat 8 (s.ch[c].fnum.toNat % 256)] }) ∧
    (∀ ch, 6 ≤ ch → exec (.getfreq ch) s = .refused (.badChannel s.cp)) ∧
    (∀ c : Fin 6, exec (.getvol c) s = .next { s with
      cp := s.cp + 2, out := s.out ++ [BitVec.ofNat 8 s.env[c].current.toNat] }) ∧
    (∀ ch, 6 ≤ ch → exec (.getvol ch) s = .refused (.badChannel s.cp)) ∧
    (∀ c : Fin 6, (shadowBytes s.ch[c]).length = 47 ∧ exec (.getpatch c) s = .next { s with
      cp := s.cp + 2, out := s.out ++ shadowBytes s.ch[c] }) ∧
    (∀ ch, 6 ≤ ch → exec (.getpatch ch) s = .refused (.badChannel s.cp))

/-- R162's corner case: GETPATCH after LOADPATCH of a record returns it with every unused bit cleared. The accessor is
decision D32, the record D20 and D11. -/
def Obligations.GetpatchAfterLoadpatchReturnsMaskedPatch : Prop :=
  ∀ (c : Fin 6) (p : Patch) (s : State), ∃ t,
    execAll [.loadpatch c p, .getpatch c] s = .next t ∧ t.out = s.out ++ maskedPatchBytes p

/-! ### Software Envelope Engine (spec/43_envelope.md) -/

/-- R181: ENVATTACK sets target, speed, counter and active, and keeps `current`; a speed of ENV_SPEED_WIDTH bits other than
0 only, 1 to 255 at its default 8. The mask of the target is decision D17, the speed's range D16
(notes/assumptions/8.md). -/
def Obligations.EnvattackSetsTheRamp : Prop :=
  ∀ (target speed : Nat) (s : State),
    (∀ c : Fin 6, 1 ≤ speed → speed < 2 ^ s.cfg.envSpeedWidth → exec (.envattack c target speed) s = .next { s with
      cp := s.cp + 4
      env := s.env.set c
        { current := s.env[c].current, target := BitVec.ofNat 7 target, speed := speed,
          counter := 0, active := true } }) ∧
    (∀ ch, 6 ≤ ch → exec (.envattack ch target speed) s = .refused (.badChannel s.cp)) ∧
    (∀ c : Fin 6, speed = 0 ∨ 2 ^ s.cfg.envSpeedWidth ≤ speed →
      exec (.envattack c target speed) s = .refused (.badEnvSpeed s.cp))

/-- R182: ENVRELEASE sets target 127, speed and active, and keeps `current` and `counter`; a speed of ENV_SPEED_WIDTH bits
other than 0 only, 1 to 255 at its default 8. The speed's range is decision D16 (notes/assumptions/8.md). -/
def Obligations.EnvreleaseKeepsTheCounter : Prop :=
  ∀ (speed : Nat) (s : State),
    (∀ c : Fin 6, 1 ≤ speed → speed < 2 ^ s.cfg.envSpeedWidth → exec (.envrelease c speed) s = .next { s with
      cp := s.cp + 3
      env := s.env.set c
        { current := s.env[c].current, target := 127, speed := speed,
          counter := s.env[c].counter, active := true } }) ∧
    (∀ ch, 6 ≤ ch → exec (.envrelease ch speed) s = .refused (.badChannel s.cp)) ∧
    (∀ c : Fin 6, speed = 0 ∨ 2 ^ s.cfg.envSpeedWidth ≤ speed →
      exec (.envrelease c speed) s = .refused (.badEnvSpeed s.cp))

/-- R183, R184: ENVTICK advances the envelope by one frame, answers whether the volume changed, and touches nothing
else. Reaching read as `>=` is decision D14, the end of the ramp tested only on a step D15. -/
def Obligations.EnvtickAdvancesOneFrame : Prop :=
  ∀ s : State,
    (∀ c : Fin 6, ∃ e changed, EnvTicked s.env[c] e changed ∧ exec (.envtick c) s = .next { s with
      cp := s.cp + 2, env := s.env.set c e, out := s.out ++ [if changed then 1 else 0] }) ∧
    (∀ ch, 6 ≤ ch → exec (.envtick ch) s = .refused (.badChannel s.cp))

/-- R188: ENVRESET gives the envelope its reset value and makes no bus access. The command and its values are decision
D18. -/
def Obligations.EnvresetRestoresTheEnvelope : Prop :=
  ∀ s : State,
    (∀ c : Fin 6, exec (.envreset c) s = .next { s with
      cp := s.cp + 2
      env := s.env.set c { current := 127, target := 127, speed := 1, counter := 0, active := false } }) ∧
    (∀ ch, 6 ≤ ch → exec (.envreset ch) s = .refused (.badChannel s.cp))

/-- R189: ENVUPD ticks, and exactly when the volume changed writes it to the carrier's total-level register and
records it there. The command is decision D19. -/
def Obligations.EnvupdTicksAndWritesTheCarrier : Prop :=
  ∀ s : State,
    (∀ c : Fin 6, ∃ e changed u, EnvTicked s.env[c] e changed ∧
      AfterWrites s (if changed then [operWrite c s.ch[c].carrier s.cfg.regTl e.current.toNat] else []) u ∧
      exec (.envupd c) s = .next { u with
        cp := s.cp + 2
        env := s.env.set c e
        ch := if changed then s.ch.set c { s.ch[c] with
            op := s.ch[c].op.set s.ch[c].carrier
              { s.ch[c].op[s.ch[c].carrier] with totalLevel := e.current } } else s.ch
        out := s.out ++ [if changed then 1 else 0] }) ∧
    (∀ ch, 6 ≤ ch → exec (.envupd ch) s = .refused (.badChannel s.cp))

/-- R189 against R183 and R157: ENVUPD leaves the tables and the bus as ENVTICK followed, when it answered 1, by SETTL
of the carrier with the volume after the tick. The commands are decisions D13 and D19. -/
def Obligations.EnvupdIsEnvtickThenSettl : Prop :=
  ∀ (c : Fin 6) (s : State), ∃ t v w,
    exec (.envupd c) s = .next t ∧ exec (.envtick c) s = .next v ∧ t.out = v.out ∧
    execAll (if v.out = s.out ++ [1] then [.settl c (s.chan c).carrier (v.envOf c).current.toNat] else []) v = .next w ∧
    t.ch = w.ch ∧ t.env = w.env ∧ t.vib = w.vib ∧ t.cfg = w.cfg ∧ SameBus t w

/-- R187 (b): after ENVATTACK with distance `d` and speed `n`, the ticks numbered `n, 2n, ..., d·n` answer 1 and all
others 0; the ramp is over, at its target, from tick `d·n` on (from tick `n` on when `d` is 0). The spec derives it
from R184 (decisions D14 to D17); the legal speeds are those of ENV_SPEED_WIDTH bits other than 0 (R9,
notes/assumptions/8.md). -/
def Obligations.EnvelopeRampTakesDistanceTimesSpeedTicks : Prop :=
  ∀ (c : Fin 6) (target speed k : Nat) (s : State), 1 ≤ speed → speed < 2 ^ s.cfg.envSpeedWidth →
    let d := (s.envOf c).current.toNat - target % 128 + (target % 128 - (s.envOf c).current.toNat)
    ∃ t, execAll (.envattack c target speed :: List.replicate k (.envtick c)) s = .next t ∧
      t.out = s.out ++ (List.range k).map (fun j =>
        if (j + 1) % speed = 0 ∧ (j + 1) / speed ≤ d then (1 : Byte) else 0) ∧
      ((t.envOf c).active = false ↔ max d 1 * speed ≤ k) ∧
      (max d 1 * speed ≤ k → (t.envOf c).current.toNat = target % 128)

/-- R27: every command that runs to its end keeps "an inactive envelope is at its target". The converse does not hold:
ENVATTACK to the current volume and ENVRELEASE at 127 leave an envelope active at its target, which the next tick that
steps ends without a change of volume (R185). That a tick steps when `counter + 1 >= speed`, and ends a ramp only then, is
R184's reading, decisions D14 and D15; the legal speeds, those of ENV_SPEED_WIDTH bits other than 0, are D16 with the
width a parameter (R9, R180, notes/assumptions/8.md). -/
def Obligations.InactiveEnvelopeIsAtItsTarget : Prop :=
  (∀ (i : Instr) (s t : State), (∀ c, (s.envOf c).active = false → (s.envOf c).current = (s.envOf c).target) →
    exec i s = .next t → ∀ c, (t.envOf c).active = false → (t.envOf c).current = (t.envOf c).target) ∧
  (∀ (c : Fin 6) (speed : Nat) (s : State), 1 ≤ speed → speed < 2 ^ s.cfg.envSpeedWidth →
    (∃ t, exec (.envattack c (s.envOf c).current.toNat speed) s = .next t ∧ (t.envOf c).active = true ∧
      (t.envOf c).current = (t.envOf c).target) ∧
    ((s.envOf c).current = 127 → ∃ t, exec (.envrelease c speed) s = .next t ∧ (t.envOf c).active = true ∧
      (t.envOf c).current = (t.envOf c).target)) ∧
  (∀ (c : Fin 6) (s : State), (s.envOf c).active = true → (s.envOf c).current = (s.envOf c).target →
    ∃ t, exec (.envtick c) s = .next t ∧ (t.envOf c).current = (s.envOf c).current ∧
      ((t.envOf c).active = false ↔ (s.envOf c).speed ≤ (s.envOf c).counter + 1))

/-! ### Vibrato and pitch bend (spec/44_vibrato_pitchbend.md) -/

/-- R200, R201: VIBSET sets every field, `phase` 0, for a speed of 1 to 8 only; VIBCLR restores the reset value. The
commands are decision D21, the speed's range D25. -/
def Obligations.VibsetAndVibclrReplaceTheVibrato : Prop :=
  ∀ (block fnum depth speed : Nat) (s : State),
    (∀ c : Fin 6, 1 ≤ speed → speed ≤ 8 → exec (.vibset c block fnum depth speed) s = .next { s with
      cp := s.cp + 7
      vib := s.vib.set c
        { present := true, baseBlock := BitVec.ofNat 3 block, baseFnum := BitVec.ofNat 11 fnum,
          depth := BitVec.ofNat 4 depth, speed := BitVec.ofNat 4 speed, phase := 0 } }) ∧
    (∀ ch, 6 ≤ ch → exec (.vibset ch block fnum depth speed) s = .refused (.badChannel s.cp)) ∧
    (∀ c : Fin 6, speed = 0 ∨ 8 < speed →
      exec (.vibset c block fnum depth speed) s = .refused (.badVibSpeed s.cp)) ∧
    (∀ c : Fin 6, exec (.vibclr c) s = .next { s with
      cp := s.cp + 2
      vib := s.vib.set c
        { present := false, baseBlock := 0, baseFnum := 0, depth := 0, speed := 1, phase := 0 } }) ∧
    (∀ ch, 6 ≤ ch → exec (.vibclr ch) s = .refused (.badChannel s.cp))

/-- R202, R203: VIBTICK of a present vibrato advances the phase, answers the base block and the base F-number plus the
offset at the new phase, saturated, and touches nothing else; an absent vibrato is refused. The phase after the
advance is decision D23, saturation D24, the refusal of an absent one D21. -/
def Obligations.VibtickAdvancesThePhase : Prop :=
  ∀ s : State,
    (∀ c : Fin 6, s.vib[c].present = true → ∃ f : BitVec 11,
      (f.toNat : Int) = vibratoFnum s.cfg.vibOffset s.vib[c] ∧
      exec (.vibtick c) s = .next { s with
        cp := s.cp + 2
        vib := s.vib.set c { s.vib[c] with
          phase := BitVec.ofNat 6 ((s.vib[c].phase.toNat + s.vib[c].speed.toNat) % 64) }
        out := s.out ++ [BitVec.ofNat 8 s.vib[c].baseBlock.toNat, BitVec.ofNat 8 (f.toNat / 256),
          BitVec.ofNat 8 (f.toNat % 256)] }) ∧
    (∀ c : Fin 6, s.vib[c].present = false → exec (.vibtick c) s = .refused (.vibAbsent s.cp)) ∧
    (∀ ch, 6 ≤ ch → exec (.vibtick ch) s = .refused (.badChannel s.cp))

/-- R208: VIBUPD is the tick and the two frequency writes of its result, always, high byte first, recorded in the
shadow. The command is decision D26. -/
def Obligations.VibupdTicksAndWritesTheFrequency : Prop :=
  ∀ s : State,
    (∀ c : Fin 6, s.vib[c].present = true → ∃ (f : BitVec 11) (u : State),
      (f.toNat : Int) = vibratoFnum s.cfg.vibOffset s.vib[c] ∧
      AfterWrites s (freqWrites s.cfg c s.vib[c].baseBlock.toNat f.toNat) u ∧
      exec (.vibupd c) s = .next { u with
        cp := s.cp + 2
        vib := s.vib.set c { s.vib[c] with
          phase := BitVec.ofNat 6 ((s.vib[c].phase.toNat + s.vib[c].speed.toNat) % 64) }
        ch := s.ch.set c { s.ch[c] with block := s.vib[c].baseBlock, fnum := f }
        out := s.out ++ [BitVec.ofNat 8 s.vib[c].baseBlock.toNat, BitVec.ofNat 8 (f.toNat / 256),
          BitVec.ofNat 8 (f.toNat % 256)] }) ∧
    (∀ c : Fin 6, s.vib[c].present = false → exec (.vibupd c) s = .refused (.vibAbsent s.cp)) ∧
    (∀ ch, 6 ≤ ch → exec (.vibupd ch) s = .refused (.badChannel s.cp))

/-- R202, R208: VIBUPD leaves the tables, the responses and the bus as VIBTICK followed by SETFREQ with the block and
F-number it answered. The command is decision D26. -/
def Obligations.VibupdIsVibtickThenSetfreq : Prop :=
  ∀ (c : Fin 6) (s : State), (s.vibOf c).present = true → ∃ t v w, ∃ b hi lo : Byte,
    exec (.vibupd c) s = .next t ∧ exec (.vibtick c) s = .next v ∧ v.out = s.out ++ [b, hi, lo] ∧
    exec (.setfreq c b.toNat (hi.toNat * 256 + lo.toNat)) v = .next w ∧
    t.ch = w.ch ∧ t.env = w.env ∧ t.vib = w.vib ∧ t.out = w.out ∧ t.cfg = w.cfg ∧ SameBus t w

/-- R207: with a legal speed the phase is back at its starting value after exactly the multiples of `64 / gcd(speed,
64)` ticks, and not before. The spec derives it from R203. -/
def Obligations.VibratoPhaseReturnsAfterItsPeriod : Prop :=
  ∀ (c : Fin 6) (k : Nat) (s : State), (s.vibOf c).present = true → 1 ≤ (s.vibOf c).speed.toNat →
    (s.vibOf c).speed.toNat ≤ 8 →
    ∃ t, execAll (List.replicate k (.vibtick c)) s = .next t ∧
      ((t.vibOf c).phase = (s.vibOf c).phase ↔ 64 / Nat.gcd (s.vibOf c).speed.toNat 64 ∣ k)

/-- R203, R204: with VIB_OFFSET_TRI a tick's frequency is the base plus the triangle's offset at the advanced phase,
saturated: rising to `+depth` at phase 16, falling through 0 at phase 32 to `-depth` at phase 48, the magnitude rounded
toward zero; so it lies within `depth` of the base. The triangle is decision D22, the phase after the advance D23,
saturation D24. -/
def Obligations.TriangleVibratoStaysWithinDepth : Prop :=
  ∀ (c : Fin 6) (s : State), s.cfg.vibOffset = .tri → (s.vibOf c).present = true →
    let p := ((s.vibOf c).phase.toNat + (s.vibOf c).speed.toNat) % 64
    let base := (s.vibOf c).baseFnum.toNat
    let depth := (s.vibOf c).depth.toNat
    ∃ t, exec (.vibupd c) s = .next t ∧
      (t.chan c).fnum.toNat =
        (if p ≤ 16 then min 2047 (base + p * depth / 16)
          else if p ≤ 32 then min 2047 (base + (32 - p) * depth / 16)
          else if p ≤ 48 then base - (p - 32) * depth / 16
          else base - (64 - p) * depth / 16) ∧
      (t.chan c).fnum.toNat ≤ base + depth ∧ base ≤ (t.chan c).fnum.toNat + depth ∧
      (t.chan c).block = (s.vibOf c).baseBlock

/-- R210: PBEND answers the current value moved toward the target by at most the speed, all masked to PB_WIDTH, and
whether it is there; no state is read or written but the parameter. The first response byte is stated for a next value of
16 bits, which is every one at the default PB_WIDTH 16; beyond it is free (notes/assumptions/8.md). The width is decision
D27. -/
def Obligations.PbendMovesTowardTheTarget : Prop :=
  ∀ (cur tgt spd : Nat) (s : State),
    let c := cur % 2 ^ s.cfg.pbWidth
    let t := tgt % 2 ^ s.cfg.pbWidth
    let d := spd % 2 ^ s.cfg.pbWidth
    let next := if c < t then min t (c + d) else max t (c - d)
    ∃ high : Byte, (next < 65536 → high = BitVec.ofNat 8 (next / 256)) ∧
      exec (.pbend cur tgt spd) s = .next { s with
        cp := s.cp + 7
        out := s.out ++ [high, BitVec.ofNat 8 (next % 256), if next = t then 1 else 0] }

/-- R211: running PBEND again and again, each time with the value the call before answered, reaches the target after
exactly `ceil(d / spd)` calls; every call before answers `reached = 0` and all later ones 1 (the first already, when `d` is
0); every call before the last moves by exactly the speed. The spec derives it from R210. -/
def Obligations.PitchBendReachesTheTargetInTime : Prop :=
  ∀ (cur tgt spd : Nat) (s : State), s.cfg.pbWidth ≤ 16 → cur < 2 ^ s.cfg.pbWidth → tgt < 2 ^ s.cfg.pbWidth →
    1 ≤ spd → spd < 2 ^ s.cfg.pbWidth →
    let d := cur - tgt + (tgt - cur)
    let calls := (d + spd - 1) / spd
    ∃ (value : Nat → Nat) (state : Nat → State), value 0 = cur ∧ state 0 = s ∧ ∀ n,
      exec (.pbend (value n) tgt spd) (state n) = .next (state (n + 1)) ∧
      value (n + 1) < 65536 ∧
      (state (n + 1)).out = (state n).out ++ [BitVec.ofNat 8 (value (n + 1) / 256),
        BitVec.ofNat 8 (value (n + 1) % 256), if calls ≤ n + 1 then 1 else 0] ∧
      (value n = tgt ↔ calls ≤ n) ∧
      (n + 1 < calls → value (n + 1) = if cur < tgt then value n + spd else value n - spd)

/-! ### DAC and timers (spec/45_dac.md, spec/46_timer.md) -/

/-- R231, R232: DACEN and DACDIS are one write each to the DAC enable register on port 0, and change nothing else. That
the register is on port 0 is the spec's general knowledge (R230, decision D30), the advance of `cp` decision D20. -/
def Obligations.DacSwitchIsOneWrite : Prop :=
  ∀ s : State,
    (∃ u, AfterWrites s [(.p0, s.cfg.regDacEn, s.cfg.dacEnOn)] u ∧ exec .dacen s = .next { u with cp := s.cp + 1 }) ∧
    (∃ u, AfterWrites s [(.p0, s.cfg.regDacEn, s.cfg.dacEnOff)] u ∧ exec .dacdis s = .next { u with cp := s.cp + 1 })

/-- R233, R73: PLAYBUF writes every sample in order to the DAC data register on port 0, each followed by its wait, and
changes nothing else. `len` is the number of samples masked to 16 bits, and the first `len` samples are played; that the
operand is the count is notes/assumptions/12.md. The full port write of each sample, the last wait and the operands' widths
are decision D29, the port D30. -/
def Obligations.PlaybufWritesEverySample : Prop :=
  ∀ (div : Nat) (samples : List Nat) (s : State),
    let len := samples.length % 65536
    ∃ evs, PlayEvents s.cfg (BitVec.ofNat 16 div) ((samples.take len).map (BitVec.ofNat 8)) evs ∧ Answered s evs ∧
      busWrites evs = (samples.take len).flatMap (fun x => [(.p0a, s.cfg.regDacData), (.p0d, BitVec.ofNat 8 x)]) ∧
      exec (.playbuf div samples) s = .next { busAfter s evs with cp := s.cp + (5 + len) }

/-- R246 to R249: SETTMRA writes the high eight and then the low two bits of its value, SETTMRB, TMRSTART and TMRSTOP
one byte, all on port 0, and they change nothing else. The split and its order, the flags passed through and the stop
value are decision D31. -/
def Obligations.TimerCommandsWriteTheirRegisters : Prop :=
  ∀ s : State,
    (∀ val, ∃ u, AfterWrites s [(.p0, s.cfg.regTmrAHi, BitVec.ofNat 8 (val % 1024 / 4)),
        (.p0, s.cfg.regTmrALo, BitVec.ofNat 8 (val % 4))] u ∧
      exec (.settmra val) s = .next { u with cp := s.cp + 3 }) ∧
    (∀ val, ∃ u, AfterWrites s [(.p0, s.cfg.regTmrB, BitVec.ofNat 8 val)] u ∧
      exec (.settmrb val) s = .next { u with cp := s.cp + 2 }) ∧
    (∀ flags, ∃ u, AfterWrites s [(.p0, s.cfg.regTmrCtrl, BitVec.ofNat 8 flags)] u ∧
      exec (.tmrstart flags) s = .next { u with cp := s.cp + 2 }) ∧
    (∃ u, AfterWrites s [(.p0, s.cfg.regTmrCtrl, s.cfg.tmrStopValue)] u ∧
      exec .tmrstop s = .next { u with cp := s.cp + 1 })

/-! ### The per-frame tick (spec/47_frame_tick.md) -/

/-- R265: FRAME ticks every envelope, writes and records every changed volume, advances every present vibrato, writes
and records its frequency; the writes go channel by channel, the envelope's before the vibrato's; nothing is answered.
The command and its order are decision D28. -/
def Obligations.FrameTicksEveryChannel : Prop :=
  ∀ s : State, ∃ (e : Fin 6 → EnvState) (changed : Fin 6 → Bool) (f : Fin 6 → BitVec 11) (u : State),
    (∀ c, EnvTicked (s.envOf c) (e c) (changed c)) ∧
    (∀ c, ((f c).toNat : Int) = vibratoFnum s.cfg.vibOffset (s.vibOf c)) ∧
    AfterWrites s
      ((List.finRange 6).flatMap fun c =>
        (if changed c then [operWrite c (s.chan c).carrier s.cfg.regTl (e c).current.toNat] else []) ++
          if (s.vibOf c).present then freqWrites s.cfg c (s.vibOf c).baseBlock.toNat (f c).toNat else []) u ∧
    exec .frame s = .next { u with
      cp := s.cp + 1
      env := Vector.ofFn e
      vib := Vector.ofFn fun c =>
        if (s.vibOf c).present then { s.vibOf c with
          phase := BitVec.ofNat 6 (((s.vibOf c).phase.toNat + (s.vibOf c).speed.toNat) % 64) } else s.vibOf c
      ch := Vector.ofFn fun c =>
        let x := if changed c then { s.chan c with
          op := (s.chan c).op.set (s.chan c).carrier
            { (s.chan c).op[(s.chan c).carrier] with totalLevel := (e c).current } } else s.chan c
        if (s.vibOf c).present then { x with block := (s.vibOf c).baseBlock, fnum := f c } else x }

/-- R265: a FRAME is equivalent to ENVUPD and, where a vibrato is present, VIBUPD of every channel in order, except
that it appends nothing to `OUT` (and has its own packet length). The command is decision D28. -/
def Obligations.FrameEqualsItsCommands : Prop :=
  ∀ s : State, ∃ t v, exec .frame s = .next t ∧ execAll (frameCommands s) s = .next v ∧
    t.out = s.out ∧ t.ch = v.ch ∧ t.env = v.env ∧ t.vib = v.vib ∧ t.cfg = v.cfg ∧ t.stream = v.stream ∧ SameBus t v

/-- R265's corner case: with every envelope inactive and no vibrato present, as at reset, FRAME writes nothing and
changes no state but `cp`. The command is decision D28. -/
def Obligations.IdleFrameChangesNothing : Prop :=
  ∀ s : State, (∀ c, (s.envOf c).active = false) → (∀ c, (s.vibOf c).present = false) →
    exec .frame s = .next { s with cp := s.cp + 1 }

/-! ### Completion and refusals (spec/60_exceptions.md) -/

/-- R280, R286: a command runs to its end exactly when every index and ranged operand is legal and, for VIBTICK and
VIBUPD, the channel has a vibrato state. R286's 1 to 255 for an envelope speed is that of ENV_SPEED_WIDTH's default 8;
for another width (R9) the legal speeds are those of that many bits other than 0 (R180, decision D16,
notes/assumptions/8.md). -/
def Obligations.CommandsCompleteExactlyWhenLegal : Prop :=
  ∀ (i : Instr) (s : State), (∃ t, exec i s = .next t) ↔ (i.legal s.cfg.envSpeedWidth = true ∧ Ready i s)

/-- R284, R286, R287: the reason of a refused command is the first illegal operand's in packet order, a missing vibrato
comes last, and it carries the `cp` of the command. BadEnvSpeed is of a speed that is 0 or has more than ENV_SPEED_WIDTH
bits, R286's "outside 1 to 255" at the default 8; the width is a parameter (R9, R180, decision D16,
notes/assumptions/8.md). -/
def Obligations.RefusalsNameTheFirstIllegalOperand : Prop :=
  ∀ (i : Instr) (s : State) (r : Refusal), exec i s = .refused r →
    (∃ port reg val, i = .write port reg val ∧ 2 ≤ port ∧ r = .badPort s.cp) ∨
    (∃ ch, channelOperand i = some ch ∧ 6 ≤ ch ∧ r = .badChannel s.cp) ∨
    ((∀ ch, channelOperand i = some ch → ch < 6) ∧
      (((∃ ch op tl, 4 ≤ op ∧ (i = .regofs op ∨ i = .opmap ch op ∨ i = .settl ch op tl ∨ i = .setcarrier ch op)) ∧
          r = .badOperator s.cp) ∨
        ((∃ ch target speed, (speed = 0 ∨ 2 ^ s.cfg.envSpeedWidth ≤ speed) ∧
            (i = .envattack ch target speed ∨ i = .envrelease ch speed)) ∧ r = .badEnvSpeed s.cp) ∨
        ((∃ ch block fnum depth speed, (speed = 0 ∨ 8 < speed) ∧ i = .vibset ch block fnum depth speed) ∧
          r = .badVibSpeed s.cp) ∨
        ((∃ c : Fin 6, (s.vibOf c).present = false ∧ (i = .vibtick c ∨ i = .vibupd c)) ∧
          r = .vibAbsent s.cp)))

/-! ### What no command does (spec/10_state.md, spec/20_memory.md) -/

/-- R21: every command ends with `cp <- cp + L`, `L` its packet's length; none writes `cp` in any other way. -/
def Obligations.CommandPointerAdvancesByThePacketLength : Prop :=
  ∀ (i : Instr) (s t : State), exec i s = .next t → t.cp = s.cp + (encode i).length

/-- R33, R75: a command only appends to `OUT`, as many bytes as R71's "resp" column gives it. -/
def Obligations.ResponsesAreOnlyAppended : Prop :=
  ∀ (i : Instr) (s t : State), exec i s = .next t → ∃ bs, t.out = s.out ++ bs ∧ bs.length = responseBytes i

/-- R34, R59, R310: a command only appends to `TRACE`, and what it appends is made of whole port writes (address, settle,
data, settle), sample waits and query reads, with the chip's answers in order and every exhausted settle counted in
`capx`. -/
def Obligations.HistoryIsExtendedByWholePortWrites : Prop :=
  ∀ (i : Instr) (s t : State), exec i s = .next t →
    ∃ evs, ProtocolEvents s.cfg evs ∧ Answered s evs ∧ SameBus (busAfter s evs) t

/-- R39, R62: no command writes the parameters or the command stream. -/
def Obligations.InputsAreNeverWritten : Prop :=
  ∀ (i : Instr) (s t : State), exec i s = .next t → t.cfg = s.cfg ∧ t.stream = s.stream

/-- R22, R25: the "written by" column of the channel state: each field of a channel changes only by the commands listed
there, on that channel; `carrier` only by SETCARRIER; SETTL changes nothing of the operators but the total level of its
own, ENVUPD and FRAME nothing but that of the carrier. -/
def Obligations.ShadowFieldsChangeOnlyByTheirWriters : Prop :=
  ∀ (i : Instr) (s t : State) (c : Fin 6), exec i s = .next t →
    ((t.chan c).carrier ≠ (s.chan c).carrier → ∃ op, i = .setcarrier c op) ∧
    ((t.chan c).algorithm ≠ (s.chan c).algorithm ∨ (t.chan c).feedback ≠ (s.chan c).feedback →
      (∃ alg fb, i = .setalg c alg fb) ∨ ∃ p, i = .loadpatch c p) ∧
    ((t.chan c).left ≠ (s.chan c).left ∨ (t.chan c).right ≠ (s.chan c).right ∨ (t.chan c).ams ≠ (s.chan c).ams ∨
        (t.chan c).pms ≠ (s.chan c).pms →
      (∃ l r a m, i = .setpan c l r a m) ∨ ∃ p, i = .loadpatch c p) ∧
    ((t.chan c).block ≠ (s.chan c).block ∨ (t.chan c).fnum ≠ (s.chan c).fnum →
      (∃ b n, i = .setfreq c b n) ∨ i = .vibupd c ∨ i = .frame) ∧
    (∀ o : Fin 4, (t.chan c).op[o] ≠ (s.chan c).op[o] →
      (∃ p, i = .loadpatch c p) ∨
        ({ (t.chan c).op[o] with totalLevel := 0 } = { (s.chan c).op[o] with totalLevel := 0 } ∧
          ((∃ tl, i = .settl c o tl) ∨ ((i = .envupd c ∨ i = .frame) ∧ o = (s.chan c).carrier))))

/-- R26: the "written by" column of the envelope state, field by field. -/
def Obligations.EnvelopeFieldsChangeOnlyByTheirWriters : Prop :=
  ∀ (i : Instr) (s t : State) (c : Fin 6), exec i s = .next t →
    ((t.envOf c).current ≠ (s.envOf c).current →
      i = .envtick c ∨ i = .envupd c ∨ i = .frame ∨ i = .envreset c) ∧
    ((t.envOf c).target ≠ (s.envOf c).target ∨ (t.envOf c).speed ≠ (s.envOf c).speed →
      (∃ target speed, i = .envattack c target speed) ∨ (∃ speed, i = .envrelease c speed) ∨ i = .envreset c) ∧
    ((t.envOf c).counter ≠ (s.envOf c).counter →
      (∃ target speed, i = .envattack c target speed) ∨ i = .envtick c ∨ i = .envupd c ∨ i = .frame ∨
        i = .envreset c) ∧
    ((t.envOf c).active ≠ (s.envOf c).active →
      (∃ target speed, i = .envattack c target speed) ∨ (∃ speed, i = .envrelease c speed) ∨ i = .envtick c ∨
        i = .envupd c ∨ i = .frame ∨ i = .envreset c)

/-- R29: the "written by" column of the vibrato state: `phase` also by the ticks, every other field only by VIBSET and
VIBCLR. -/
def Obligations.VibratoFieldsChangeOnlyByTheirWriters : Prop :=
  ∀ (i : Instr) (s t : State) (c : Fin 6), exec i s = .next t →
    ({ t.vibOf c with phase := 0 } ≠ { s.vibOf c with phase := 0 } →
      (∃ b n d sp, i = .vibset c b n d sp) ∨ i = .vibclr c) ∧
    ((t.vibOf c).phase ≠ (s.vibOf c).phase →
      (∃ b n d sp, i = .vibset c b n d sp) ∨ i = .vibclr c ∨ i = .vibtick c ∨ i = .vibupd c ∨ i = .frame)

/-- The commands whose rules say "no bus access" make none: the history, the answers and `capx` stay. -/
def Obligations.BusFreeCommandsMakeNoAccess : Prop :=
  ∀ (i : Instr) (s t : State), busFree i = true → exec i s = .next t → SameBus s t

/-- In FIXED mode no command but the three status queries reads the status byte, and none ever exceeds a cap (R102,
R281). -/
def Obligations.FixedModeReadsStatusOnlyForQueries : Prop :=
  ∀ (i : Instr) (s t : State), s.cfg.settleMode = .fixed → exec i s = .next t →
    t.capx = s.capx ∧ (statusQueryCommand i = false → t.reads = s.reads ∧ t.oracle = s.oracle)

/-- R104 and D1: what the chip answers and how settles wait never changes which bytes are written, nor their order, nor
any table; only BUSYQ, TMRAOVF and TMRBOVF answer anything different. -/
def Obligations.StatusAnswersNeverChangeTheBytesWritten : Prop :=
  ∀ (i : Instr) (s s' t : State), AlikeButForStatus s s' → exec i s = .next t →
    ∃ t', exec i s' = .next t' ∧ AlikeButForStatus t t' ∧
      busWrites (t.trace.drop s.trace.length) = busWrites (t'.trace.drop s'.trace.length) ∧
      (statusQueryCommand i = false → t.out.drop s.out.length = t'.out.drop s'.out.length)

/-! ### Decoding and the step (spec/30_encoding.md) -/

/-- R70 to R72, R76: decoding the packet of a well-formed command, whatever follows it, gives the command back. -/
def Obligations.DecodeEncodeIsIdentity : Prop :=
  ∀ (i : Instr) (rest : List Byte), i.wf = true → decode (encode i ++ rest) = .ok i

/-- R70 to R72, R76: bytes that decode to a command begin with its packet, and the command is well-formed. -/
def Obligations.DecodedBytesAreTheCommandsPacket : Prop :=
  ∀ (bs : List Byte) (i : Instr), decode bs = .ok i → i.wf = true ∧ encode i <+: bs

/-- R71, R72: packets written out from the opcode map decode to their commands. -/
def Obligations.SamplePacketsDecode : Prop :=
  decode [0x32, 0x04, 0x03, 0x02, 0x84] = .ok (.setfreq 4 3 0x284) ∧
  decode [0x33, 0x04, 0x0F] = .ok (.keyon 4 0xF) ∧
  decode [0x40, 0x01, 0x7C, 0x03] = .ok (.envattack 1 0x7C 3) ∧
  decode [0x54, 0x00, 0x64, 0x00, 0x82, 0x00, 0x08] = .ok (.pbend 0x64 0x82 8) ∧
  decode [0x62, 0x00, 0x03, 0x00, 0x02, 0x80, 0xFF] = .ok (.playbuf 3 [0x80, 0xFF]) ∧
  decode [0x7F] = .ok .frame

/-- R74 steps 2 and 3, R77: an opcode byte outside R71's table is reserved, and any packet shorter than its table length,
PLAYBUF's `5 + len` included, is truncated; nothing else is refused by the decoder. -/
def Obligations.DecoderRefusesReservedAndTruncated : Prop :=
  (∀ (b : Byte) (rest : List Byte),
    decode (b :: rest) = .error .reservedOpcode ↔ b.toNat ∉ opcodeLengths.map Prod.fst) ∧
  (∀ (b : Byte) (rest : List Byte) (n : Nat), (b.toNat, n) ∈ opcodeLengths → b ≠ 0x62 →
    (decode (b :: rest) = .error .truncatedPacket ↔ rest.length + 1 < n)) ∧
  (∀ rest : List Byte, rest.length < 4 → decode (0x62 :: rest) = .error .truncatedPacket) ∧
  (∀ (d1 d2 l1 l2 : Byte) (rest : List Byte),
    decode (0x62 :: d1 :: d2 :: l1 :: l2 :: rest) = .error .truncatedPacket ↔
      rest.length < l1.toNat * 256 + l2.toNat)

/-- R74: when the stream at `cp` holds the packet of a well-formed command, a step is that command's meaning. -/
def Obligations.StepRunsTheDecodedCommand : Prop :=
  ∀ (s : State) (i : Instr) (rest : List Byte), i.wf = true → s.stream.drop s.cp = encode i ++ rest →
    step s = exec i s

/-- R74 steps 1 to 3 and R287: with bytes left that are no packet, a step is the decoder's refusal with the `cp` of the
packet. At the end of the stream a step changes nothing: that is the model's choice (notes/assumptions/7.md), R309 says
only that the run is over. The third clause also covers a `cp` beyond the stream's end, which no run reaches; that it is
refused as truncated is the model's choice too (notes/assumptions/19.md). -/
def Obligations.StepEndsOrRefusesWhatIsNoPacket : Prop :=
  ∀ s : State,
    (s.cp = s.stream.length → step s = .next s) ∧
    (s.cp ≠ s.stream.length → decode (s.stream.drop s.cp) = .error .reservedOpcode →
      step s = .refused (.reservedOpcode s.cp)) ∧
    (s.cp ≠ s.stream.length → decode (s.stream.drop s.cp) = .error .truncatedPacket →
      step s = .refused (.truncatedPacket s.cp))

/-- R6, R74, R309: running the machine over the packets of well-formed commands is running the commands at the abstract
level, refusals included, and a run that is not refused has come to the end of the stream. -/
def Obligations.PacketRunIsTheCommandRun : Prop :=
  ∀ (cmds : List Instr) (s : State), (∀ i ∈ cmds, i.wf = true) → s.cp ≤ s.stream.length →
    s.stream.drop s.cp = encodeAll cmds →
    Host.Core.run Sys2Proof.core cmds.length s = execAll cmds s ∧
      ∀ t, execAll cmds s = .next t → runOver t = true

/-! ### Reset and the invariant (spec/70_reset_and_hazards.md, spec/10_state.md) -/

/-- R301 to R304 and R9: the state after reset, with any parameters and with the defaults. The values are decisions D18,
D21 and D34 (notes/assumptions/10.md). -/
def Obligations.ResetHoldsTheSpecsValues : Prop :=
  (∀ c : Fin 6, State.reset.chan c =
    { algorithm := 0, feedback := 0, left := false, right := false, ams := 0, pms := 0, block := 0, fnum := 0,
      carrier := 3,
      op := Vector.replicate 4
        { detune := 0, multiply := 0, totalLevel := 127, rateScale := 0, attackRate := 0, amEnable := false,
          decay1Rate := 0, decay2Rate := 0, sustainLevel := 0, releaseRate := 0, ssgEg := 0 } }) ∧
  (∀ c : Fin 6, State.reset.envOf c = { current := 127, target := 127, speed := 1, counter := 0, active := false }) ∧
  (∀ c : Fin 6, State.reset.vibOf c =
    { present := false, baseBlock := 0, baseFnum := 0, depth := 0, speed := 1, phase := 0 }) ∧
  State.reset = State.resetWith State.reset.cfg ∧
  (∀ k : Config, (State.resetWith k).cfg = k ∧
    (∀ c : Fin 6, (State.resetWith k).chan c = k.resetCh ∧ (State.resetWith k).envOf c = k.resetEnv ∧
      (State.resetWith k).vibOf c = k.resetVib) ∧
    (State.resetWith k).cp = 0 ∧ (State.resetWith k).out = [] ∧ (State.resetWith k).trace = [] ∧
    (State.resetWith k).capx = 0)

/-- The invariant that every step keeps holds at reset, with the defaults and with any parameters within their bounds. -/
def Obligations.ResetMeetsTheInvariant : Prop :=
  State.reset.Inv ∧ ∀ k : Config, k.wf = true → (State.resetWith k).Inv

/-- Every step keeps the invariant: R21 (`cp` stays in the stream), R26 and R27 (an inactive envelope is at its target),
R29 (a vibrato speed of 1 to 8), R35 (`capx` counts the cap events of `TRACE`). That an inactive envelope's counter is
0 or RESET_ENV's and an absent vibrato is as RESET_VIB or VIBCLR left it follows from R184, R188, R201 and R300; that `reads` counts the status reads of
`TRACE` is about the model's own field (notes/assumptions/2.md). -/
def Obligations.EveryStepKeepsTheInvariant : Prop :=
  ∀ s t : State, s.Inv → step s = .next t → t.Inv
end

