-- ==== Sys2Proof/Laws/State.lean ====
section
/-! SUPPORT. One lemma per field of State per update of it, and the tables' read-after-write laws, so that no later proof
unfolds a record update. -/

namespace Sys2Proof.Machine

variable (s : State)

/-! ### emit -/

@[simp] theorem emit_cfg (e : Event) : (emit e s).cfg = s.cfg := rfl
@[simp] theorem emit_stream (e : Event) : (emit e s).stream = s.stream := rfl
@[simp] theorem emit_cp (e : Event) : (emit e s).cp = s.cp := rfl
@[simp] theorem emit_ch (e : Event) : (emit e s).ch = s.ch := rfl
@[simp] theorem emit_env (e : Event) : (emit e s).env = s.env := rfl
@[simp] theorem emit_vib (e : Event) : (emit e s).vib = s.vib := rfl
@[simp] theorem emit_capx (e : Event) : (emit e s).capx = s.capx := rfl
@[simp] theorem emit_out (e : Event) : (emit e s).out = s.out := rfl
@[simp] theorem emit_trace (e : Event) : (emit e s).trace = s.trace ++ [e] := rfl
@[simp] theorem emit_oracle (e : Event) : (emit e s).oracle = s.oracle := rfl
@[simp] theorem emit_reads (e : Event) : (emit e s).reads = s.reads := rfl
@[simp] theorem emit_chan (e : Event) (d : Fin 6) : (emit e s).chan d = s.chan d := rfl
@[simp] theorem emit_envOf (e : Event) (d : Fin 6) : (emit e s).envOf d = s.envOf d := rfl
@[simp] theorem emit_vibOf (e : Event) (d : Fin 6) : (emit e s).vibOf d = s.vibOf d := rfl

/-! ### memWrite -/

@[simp] theorem memWrite_cfg (l : Loc) (v : Byte) : (memWrite l v s).cfg = s.cfg := rfl
@[simp] theorem memWrite_stream (l : Loc) (v : Byte) : (memWrite l v s).stream = s.stream := rfl
@[simp] theorem memWrite_cp (l : Loc) (v : Byte) : (memWrite l v s).cp = s.cp := rfl
@[simp] theorem memWrite_ch (l : Loc) (v : Byte) : (memWrite l v s).ch = s.ch := rfl
@[simp] theorem memWrite_env (l : Loc) (v : Byte) : (memWrite l v s).env = s.env := rfl
@[simp] theorem memWrite_vib (l : Loc) (v : Byte) : (memWrite l v s).vib = s.vib := rfl
@[simp] theorem memWrite_capx (l : Loc) (v : Byte) : (memWrite l v s).capx = s.capx := rfl
@[simp] theorem memWrite_out (l : Loc) (v : Byte) : (memWrite l v s).out = s.out := rfl
@[simp] theorem memWrite_trace (l : Loc) (v : Byte) : (memWrite l v s).trace = s.trace ++ [.w l v] := rfl
@[simp] theorem memWrite_oracle (l : Loc) (v : Byte) : (memWrite l v s).oracle = s.oracle := rfl
@[simp] theorem memWrite_reads (l : Loc) (v : Byte) : (memWrite l v s).reads = s.reads := rfl
@[simp] theorem memWrite_chan (l : Loc) (v : Byte) (d : Fin 6) : (memWrite l v s).chan d = s.chan d := rfl
@[simp] theorem memWrite_envOf (l : Loc) (v : Byte) (d : Fin 6) : (memWrite l v s).envOf d = s.envOf d := rfl
@[simp] theorem memWrite_vibOf (l : Loc) (v : Byte) (d : Fin 6) : (memWrite l v s).vibOf d = s.vibOf d := rfl

/-! ### memRead -/

@[simp] theorem memRead_cfg : (memRead s).cfg = s.cfg := rfl
@[simp] theorem memRead_stream : (memRead s).stream = s.stream := rfl
@[simp] theorem memRead_cp : (memRead s).cp = s.cp := rfl
@[simp] theorem memRead_ch : (memRead s).ch = s.ch := rfl
@[simp] theorem memRead_env : (memRead s).env = s.env := rfl
@[simp] theorem memRead_vib : (memRead s).vib = s.vib := rfl
@[simp] theorem memRead_capx : (memRead s).capx = s.capx := rfl
@[simp] theorem memRead_out : (memRead s).out = s.out := rfl
@[simp] theorem memRead_trace : (memRead s).trace = s.trace ++ [.sr (nextStatus s)] := rfl
@[simp] theorem memRead_oracle : (memRead s).oracle = s.oracle.drop 1 := rfl
@[simp] theorem memRead_reads : (memRead s).reads = s.reads + 1 := rfl
@[simp] theorem memRead_chan (d : Fin 6) : (memRead s).chan d = s.chan d := rfl
@[simp] theorem memRead_envOf (d : Fin 6) : (memRead s).envOf d = s.envOf d := rfl
@[simp] theorem memRead_vibOf (d : Fin 6) : (memRead s).vibOf d = s.vibOf d := rfl

/-! ### capExceeded -/

@[simp] theorem capExceeded_cfg : (capExceeded s).cfg = s.cfg := rfl
@[simp] theorem capExceeded_stream : (capExceeded s).stream = s.stream := rfl
@[simp] theorem capExceeded_cp : (capExceeded s).cp = s.cp := rfl
@[simp] theorem capExceeded_ch : (capExceeded s).ch = s.ch := rfl
@[simp] theorem capExceeded_env : (capExceeded s).env = s.env := rfl
@[simp] theorem capExceeded_vib : (capExceeded s).vib = s.vib := rfl
@[simp] theorem capExceeded_capx : (capExceeded s).capx = satIncr s.capx := rfl
@[simp] theorem capExceeded_out : (capExceeded s).out = s.out := rfl
@[simp] theorem capExceeded_trace : (capExceeded s).trace = s.trace ++ [.capx] := rfl
@[simp] theorem capExceeded_oracle : (capExceeded s).oracle = s.oracle := rfl
@[simp] theorem capExceeded_reads : (capExceeded s).reads = s.reads := rfl
@[simp] theorem capExceeded_chan (d : Fin 6) : (capExceeded s).chan d = s.chan d := rfl
@[simp] theorem capExceeded_envOf (d : Fin 6) : (capExceeded s).envOf d = s.envOf d := rfl
@[simp] theorem capExceeded_vibOf (d : Fin 6) : (capExceeded s).vibOf d = s.vibOf d := rfl

/-! ### setChan -/

@[simp] theorem setChan_cfg (c : Fin 6) (x : ChState) : (setChan c x s).cfg = s.cfg := rfl
@[simp] theorem setChan_stream (c : Fin 6) (x : ChState) : (setChan c x s).stream = s.stream := rfl
@[simp] theorem setChan_cp (c : Fin 6) (x : ChState) : (setChan c x s).cp = s.cp := rfl
@[simp] theorem setChan_ch (c : Fin 6) (x : ChState) : (setChan c x s).ch = s.ch.set c x := rfl
@[simp] theorem setChan_env (c : Fin 6) (x : ChState) : (setChan c x s).env = s.env := rfl
@[simp] theorem setChan_vib (c : Fin 6) (x : ChState) : (setChan c x s).vib = s.vib := rfl
@[simp] theorem setChan_capx (c : Fin 6) (x : ChState) : (setChan c x s).capx = s.capx := rfl
@[simp] theorem setChan_out (c : Fin 6) (x : ChState) : (setChan c x s).out = s.out := rfl
@[simp] theorem setChan_trace (c : Fin 6) (x : ChState) : (setChan c x s).trace = s.trace := rfl
@[simp] theorem setChan_oracle (c : Fin 6) (x : ChState) : (setChan c x s).oracle = s.oracle := rfl
@[simp] theorem setChan_reads (c : Fin 6) (x : ChState) : (setChan c x s).reads = s.reads := rfl
@[simp] theorem setChan_envOf (c : Fin 6) (x : ChState) (d : Fin 6) : (setChan c x s).envOf d = s.envOf d := rfl
@[simp] theorem setChan_vibOf (c : Fin 6) (x : ChState) (d : Fin 6) : (setChan c x s).vibOf d = s.vibOf d := rfl

/-! ### setEnv -/

@[simp] theorem setEnv_cfg (c : Fin 6) (x : EnvState) : (setEnv c x s).cfg = s.cfg := rfl
@[simp] theorem setEnv_stream (c : Fin 6) (x : EnvState) : (setEnv c x s).stream = s.stream := rfl
@[simp] theorem setEnv_cp (c : Fin 6) (x : EnvState) : (setEnv c x s).cp = s.cp := rfl
@[simp] theorem setEnv_ch (c : Fin 6) (x : EnvState) : (setEnv c x s).ch = s.ch := rfl
@[simp] theorem setEnv_env (c : Fin 6) (x : EnvState) : (setEnv c x s).env = s.env.set c x := rfl
@[simp] theorem setEnv_vib (c : Fin 6) (x : EnvState) : (setEnv c x s).vib = s.vib := rfl
@[simp] theorem setEnv_capx (c : Fin 6) (x : EnvState) : (setEnv c x s).capx = s.capx := rfl
@[simp] theorem setEnv_out (c : Fin 6) (x : EnvState) : (setEnv c x s).out = s.out := rfl
@[simp] theorem setEnv_trace (c : Fin 6) (x : EnvState) : (setEnv c x s).trace = s.trace := rfl
@[simp] theorem setEnv_oracle (c : Fin 6) (x : EnvState) : (setEnv c x s).oracle = s.oracle := rfl
@[simp] theorem setEnv_reads (c : Fin 6) (x : EnvState) : (setEnv c x s).reads = s.reads := rfl
@[simp] theorem setEnv_chan (c : Fin 6) (x : EnvState) (d : Fin 6) : (setEnv c x s).chan d = s.chan d := rfl
@[simp] theorem setEnv_vibOf (c : Fin 6) (x : EnvState) (d : Fin 6) : (setEnv c x s).vibOf d = s.vibOf d := rfl

/-! ### setVib -/

@[simp] theorem setVib_cfg (c : Fin 6) (x : VibState) : (setVib c x s).cfg = s.cfg := rfl
@[simp] theorem setVib_stream (c : Fin 6) (x : VibState) : (setVib c x s).stream = s.stream := rfl
@[simp] theorem setVib_cp (c : Fin 6) (x : VibState) : (setVib c x s).cp = s.cp := rfl
@[simp] theorem setVib_ch (c : Fin 6) (x : VibState) : (setVib c x s).ch = s.ch := rfl
@[simp] theorem setVib_env (c : Fin 6) (x : VibState) : (setVib c x s).env = s.env := rfl
@[simp] theorem setVib_vib (c : Fin 6) (x : VibState) : (setVib c x s).vib = s.vib.set c x := rfl
@[simp] theorem setVib_capx (c : Fin 6) (x : VibState) : (setVib c x s).capx = s.capx := rfl
@[simp] theorem setVib_out (c : Fin 6) (x : VibState) : (setVib c x s).out = s.out := rfl
@[simp] theorem setVib_trace (c : Fin 6) (x : VibState) : (setVib c x s).trace = s.trace := rfl
@[simp] theorem setVib_oracle (c : Fin 6) (x : VibState) : (setVib c x s).oracle = s.oracle := rfl
@[simp] theorem setVib_reads (c : Fin 6) (x : VibState) : (setVib c x s).reads = s.reads := rfl
@[simp] theorem setVib_chan (c : Fin 6) (x : VibState) (d : Fin 6) : (setVib c x s).chan d = s.chan d := rfl
@[simp] theorem setVib_envOf (c : Fin 6) (x : VibState) (d : Fin 6) : (setVib c x s).envOf d = s.envOf d := rfl

/-! ### respond -/

@[simp] theorem respond_cfg (bs : List Byte) : (respond bs s).cfg = s.cfg := rfl
@[simp] theorem respond_stream (bs : List Byte) : (respond bs s).stream = s.stream := rfl
@[simp] theorem respond_cp (bs : List Byte) : (respond bs s).cp = s.cp := rfl
@[simp] theorem respond_ch (bs : List Byte) : (respond bs s).ch = s.ch := rfl
@[simp] theorem respond_env (bs : List Byte) : (respond bs s).env = s.env := rfl
@[simp] theorem respond_vib (bs : List Byte) : (respond bs s).vib = s.vib := rfl
@[simp] theorem respond_capx (bs : List Byte) : (respond bs s).capx = s.capx := rfl
@[simp] theorem respond_out (bs : List Byte) : (respond bs s).out = s.out ++ bs := rfl
@[simp] theorem respond_trace (bs : List Byte) : (respond bs s).trace = s.trace := rfl
@[simp] theorem respond_oracle (bs : List Byte) : (respond bs s).oracle = s.oracle := rfl
@[simp] theorem respond_reads (bs : List Byte) : (respond bs s).reads = s.reads := rfl
@[simp] theorem respond_chan (bs : List Byte) (d : Fin 6) : (respond bs s).chan d = s.chan d := rfl
@[simp] theorem respond_envOf (bs : List Byte) (d : Fin 6) : (respond bs s).envOf d = s.envOf d := rfl
@[simp] theorem respond_vibOf (bs : List Byte) (d : Fin 6) : (respond bs s).vibOf d = s.vibOf d := rfl

/-! ### advance -/

@[simp] theorem advance_cfg (n : Nat) : (advance n s).cfg = s.cfg := rfl
@[simp] theorem advance_stream (n : Nat) : (advance n s).stream = s.stream := rfl
@[simp] theorem advance_cp (n : Nat) : (advance n s).cp = s.cp + n := rfl
@[simp] theorem advance_ch (n : Nat) : (advance n s).ch = s.ch := rfl
@[simp] theorem advance_env (n : Nat) : (advance n s).env = s.env := rfl
@[simp] theorem advance_vib (n : Nat) : (advance n s).vib = s.vib := rfl
@[simp] theorem advance_capx (n : Nat) : (advance n s).capx = s.capx := rfl
@[simp] theorem advance_out (n : Nat) : (advance n s).out = s.out := rfl
@[simp] theorem advance_trace (n : Nat) : (advance n s).trace = s.trace := rfl
@[simp] theorem advance_oracle (n : Nat) : (advance n s).oracle = s.oracle := rfl
@[simp] theorem advance_reads (n : Nat) : (advance n s).reads = s.reads := rfl
@[simp] theorem advance_chan (n : Nat) (d : Fin 6) : (advance n s).chan d = s.chan d := rfl
@[simp] theorem advance_envOf (n : Nat) (d : Fin 6) : (advance n s).envOf d = s.envOf d := rfl
@[simp] theorem advance_vibOf (n : Nat) (d : Fin 6) : (advance n s).vibOf d = s.vibOf d := rfl

/-! ### Reading a table after writing it -/

@[simp] theorem setChan_chan (c d : Fin 6) (x : ChState) :
    (setChan c x s).chan d = if c = d then x else s.chan d := by
  simp [State.chan, setChan, Vector.getElem_set, Fin.ext_iff]

@[simp] theorem setEnv_envOf (c d : Fin 6) (x : EnvState) :
    (setEnv c x s).envOf d = if c = d then x else s.envOf d := by
  simp [State.envOf, setEnv, Vector.getElem_set, Fin.ext_iff]

@[simp] theorem setVib_vibOf (c d : Fin 6) (x : VibState) :
    (setVib c x s).vibOf d = if c = d then x else s.vibOf d := by
  simp [State.vibOf, setVib, Vector.getElem_set, Fin.ext_iff]

@[simp] theorem setOper_oper (x : ChState) (o p : Fin 4) (y : OpState) :
    (x.setOper o y).oper p = if o = p then y else x.oper p := by
  simp [ChState.oper, ChState.setOper, Vector.getElem_set, Fin.ext_iff]

theorem setChan_chan_self (c : Fin 6) (x : ChState) : (setChan c x s).chan c = x := by simp

theorem setChan_setChan (c : Fin 6) (x y : ChState) : setChan c y (setChan c x s) = setChan c y s := by
  simp [setChan]

theorem setChan_self (c : Fin 6) : setChan c (s.chan c) s = s := by
  simp [setChan, State.chan]

theorem setEnv_self (c : Fin 6) : setEnv c (s.envOf c) s = s := by
  simp [setEnv, State.envOf]

theorem setVib_self (c : Fin 6) : setVib c (s.vibOf c) s = s := by
  simp [setVib, State.vibOf]

theorem setEnv_setEnv (c : Fin 6) (x y : EnvState) : setEnv c y (setEnv c x s) = setEnv c y s := by
  simp [setEnv]

theorem setVib_setVib (c : Fin 6) (x y : VibState) : setVib c y (setVib c x s) = setVib c y s := by
  simp [setVib]

theorem setEnv_setChan (c d : Fin 6) (x : EnvState) (y : ChState) :
    setEnv c x (setChan d y s) = setChan d y (setEnv c x s) := rfl

theorem setVib_setChan (c d : Fin 6) (x : VibState) (y : ChState) :
    setVib c x (setChan d y s) = setChan d y (setVib c x s) := rfl

theorem setOper_eta (x : ChState) (o : Fin 4) : x.setOper o (x.oper o) = x := by
  simp [ChState.setOper, ChState.oper]

end Sys2Proof.Machine
end

