-- ==== Sys2Proof/Laws/Bus.lean ====
section
/-! SUPPORT. What the bus operations can do, said once: every one of them is `busAfter` with some history, a settle's
history is `SettleEvents`, a port write's is `PortWriteEvents`; histories compose. -/

namespace Sys2Proof.Machine

/-! ### Histories -/

@[simp] theorem statusReads_append (a b : List Event) : statusReads (a ++ b) = statusReads a ++ statusReads b := by
  simp [statusReads]

@[simp] theorem busWrites_append (a b : List Event) : busWrites (a ++ b) = busWrites a ++ busWrites b := by
  simp [busWrites]

@[simp] theorem capCount_append (a b : List Event) : capCount (a ++ b) = capCount a + capCount b := by
  simp [capCount]

@[simp] theorem statusReads_nil : statusReads [] = [] := rfl
@[simp] theorem busWrites_nil : busWrites [] = [] := rfl
@[simp] theorem capCount_nil : capCount [] = 0 := rfl

@[simp] theorem statusReads_sr (b : Byte) (es : List Event) : statusReads (.sr b :: es) = b :: statusReads es := rfl
@[simp] theorem statusReads_w (l : Loc) (v : Byte) (es : List Event) : statusReads (.w l v :: es) = statusReads es := rfl
@[simp] theorem statusReads_settle (n : Nat) (es : List Event) : statusReads (.settle n :: es) = statusReads es := rfl
@[simp] theorem statusReads_capx (es : List Event) : statusReads (.capx :: es) = statusReads es := rfl
@[simp] theorem statusReads_swait (d : BitVec 16) (es : List Event) :
    statusReads (.swait d :: es) = statusReads es := rfl

@[simp] theorem busWrites_sr (b : Byte) (es : List Event) : busWrites (.sr b :: es) = busWrites es := rfl
@[simp] theorem busWrites_w (l : Loc) (v : Byte) (es : List Event) : busWrites (.w l v :: es) = (l, v) :: busWrites es := rfl
@[simp] theorem busWrites_settle (n : Nat) (es : List Event) : busWrites (.settle n :: es) = busWrites es := rfl
@[simp] theorem busWrites_capx (es : List Event) : busWrites (.capx :: es) = busWrites es := rfl
@[simp] theorem busWrites_swait (d : BitVec 16) (es : List Event) : busWrites (.swait d :: es) = busWrites es := rfl

theorem capCount_cons (e : Event) (es : List Event) :
    capCount (e :: es) = capCount es + if e = .capx then 1 else 0 := by
  simp [capCount, List.countP_cons]

@[simp] theorem statusReads_map_sr (bs : List Byte) : statusReads (bs.map .sr) = bs := by
  induction bs with
  | nil => rfl
  | cons b bs ih => simp [ih]

@[simp] theorem busWrites_map_sr (bs : List Byte) : busWrites (bs.map .sr) = [] := by
  induction bs with
  | nil => rfl
  | cons b bs ih => simp [ih]

/-! ### busAfter -/

variable (s : State)

@[simp] theorem busAfter_cfg (evs : List Event) : (busAfter s evs).cfg = s.cfg := rfl
@[simp] theorem busAfter_stream (evs : List Event) : (busAfter s evs).stream = s.stream := rfl
@[simp] theorem busAfter_cp (evs : List Event) : (busAfter s evs).cp = s.cp := rfl
@[simp] theorem busAfter_ch (evs : List Event) : (busAfter s evs).ch = s.ch := rfl
@[simp] theorem busAfter_env (evs : List Event) : (busAfter s evs).env = s.env := rfl
@[simp] theorem busAfter_vib (evs : List Event) : (busAfter s evs).vib = s.vib := rfl
@[simp] theorem busAfter_out (evs : List Event) : (busAfter s evs).out = s.out := rfl
@[simp] theorem busAfter_trace (evs : List Event) : (busAfter s evs).trace = s.trace ++ evs := rfl
@[simp] theorem busAfter_reads (evs : List Event) :
    (busAfter s evs).reads = s.reads + (statusReads evs).length := rfl
@[simp] theorem busAfter_oracle (evs : List Event) :
    (busAfter s evs).oracle = s.oracle.drop (statusReads evs).length := rfl
@[simp] theorem busAfter_capx_toNat (evs : List Event) :
    (busAfter s evs).capx.toNat = min (s.capx.toNat + capCount evs) 0xFFFFFFFF := by
  simp only [busAfter, BitVec.toNat_ofNat]; omega

@[simp] theorem busAfter_nil : busAfter s [] = s := by
  have h : BitVec.ofNat 32 (min s.capx.toNat 0xFFFFFFFF) = s.capx := by
    apply BitVec.eq_of_toNat_eq
    have := s.capx.isLt
    simp only [BitVec.toNat_ofNat]; omega
  simp [busAfter, h]

theorem busAfter_busAfter (a b : List Event) : busAfter (busAfter s a) b = busAfter s (a ++ b) := by
  have h : BitVec.ofNat 32 (min ((busAfter s a).capx.toNat + capCount b) 0xFFFFFFFF) =
      BitVec.ofNat 32 (min (s.capx.toNat + capCount (a ++ b)) 0xFFFFFFFF) := by
    rw [busAfter_capx_toNat, capCount_append]; congr 1; omega
  rw [busAfter, h]
  simp [busAfter, Nat.add_assoc]

@[simp] theorem answer_busAfter (evs : List Event) (n : Nat) :
    answer (busAfter s evs) n = answer s ((statusReads evs).length + n) := by
  simp [answer, List.getD_eq_getElem?_getD, Nat.add_assoc]

theorem answer_zero : answer s 0 = nextStatus s := by
  unfold answer nextStatus
  cases s.oracle <;> simp

theorem Answered.nil : Answered s [] := by simp [Answered]

variable {s}

theorem Answered.append {a b : List Event} (ha : Answered s a) (hb : Answered (busAfter s a) b) :
    Answered s (a ++ b) := by
  unfold Answered at *
  rw [statusReads_append, List.length_append, List.range_add, List.map_append, ← ha, List.map_map]
  congr 1
  rw [hb]
  simp [Function.comp_def]

theorem Answered.of_statusReads_nil {evs : List Event} (h : statusReads evs = []) : Answered s evs := by
  simp [Answered, h]

/-! ### The bus operations as busAfter -/

variable (s)

theorem emit_eq_busAfter (e : Event) (h1 : statusReads [e] = []) (h2 : e ≠ .capx) :
    emit e s = busAfter s [e] := by
  have hc : capCount [e] = 0 := by simp [capCount_cons, h2]
  have h : BitVec.ofNat 32 (min s.capx.toNat 0xFFFFFFFF) = s.capx := by
    apply BitVec.eq_of_toNat_eq
    have := s.capx.isLt
    simp only [BitVec.toNat_ofNat]; omega
  simp [emit, busAfter, h1, hc, h]

theorem memWrite_eq_busAfter (l : Loc) (v : Byte) : memWrite l v s = busAfter s [.w l v] :=
  emit_eq_busAfter s _ rfl (by simp)

theorem memRead_eq_busAfter : memRead s = busAfter s [.sr (nextStatus s)] := by
  have h : BitVec.ofNat 32 (min s.capx.toNat 0xFFFFFFFF) = s.capx := by
    apply BitVec.eq_of_toNat_eq
    have := s.capx.isLt
    simp only [BitVec.toNat_ofNat]; omega
  simp [memRead, busAfter, capCount_cons, h]

theorem answered_sr : Answered s [.sr (nextStatus s)] := by
  simp [Answered, answer_zero]

theorem capExceeded_eq_busAfter : capExceeded s = busAfter s [.capx] := by
  simp [capExceeded, emit, busAfter, capCount_cons, satIncr]

/-- The poll loop with `n` reads left: fewer than `n` busy answers and a ready one, or `n` busy answers and the cap
event. -/
theorem pollSettle_spec (n : Nat) (s : State) : ∃ evs,
    ((∃ (busy : List Byte) (ready : Byte), busy.length < n ∧ (∀ b ∈ busy, b.getLsbD s.cfg.busyBit = true) ∧
        ready.getLsbD s.cfg.busyBit = false ∧ evs = busy.map .sr ++ [.sr ready]) ∨
      (∃ busy : List Byte, busy.length = n ∧ (∀ b ∈ busy, b.getLsbD s.cfg.busyBit = true) ∧
        evs = busy.map .sr ++ [.capx])) ∧
    Answered s evs ∧ pollSettle n s = busAfter s evs := by
  induction n generalizing s with
  | zero =>
    exact ⟨[.capx], .inr ⟨[], rfl, by simp, rfl⟩, Answered.of_statusReads_nil rfl, capExceeded_eq_busAfter s⟩
  | succ n ih =>
    by_cases hb : busyFlag s.cfg (nextStatus s) = true
    · obtain ⟨evs, hcase, hans, heq⟩ := ih (memRead s)
      rw [memRead_eq_busAfter] at hans
      refine ⟨.sr (nextStatus s) :: evs, ?_, (answered_sr s).append hans, ?_⟩
      · rcases hcase with ⟨busy, ready, hl, hall, hr, rfl⟩ | ⟨busy, hl, hall, rfl⟩
        · refine .inl ⟨nextStatus s :: busy, ready, by simpa using hl, ?_, hr, rfl⟩
          simpa [busyFlag] using ⟨hb, hall⟩
        · refine .inr ⟨nextStatus s :: busy, by simpa using hl, ?_, rfl⟩
          simpa [busyFlag] using ⟨hb, hall⟩
      · simp only [pollSettle, hb, if_true, heq]
        rw [memRead_eq_busAfter, busAfter_busAfter]; rfl
    · refine ⟨[.sr (nextStatus s)], .inl ⟨[], nextStatus s, by simp, by simp, ?_, rfl⟩, answered_sr s, ?_⟩
      · simpa [busyFlag] using hb
      · simp only [pollSettle, hb, Bool.false_eq_true, if_false, memRead_eq_busAfter]

/-- A settle is `busAfter` with a settle's history (R102). -/
theorem settle_spec (s : State) : ∃ evs, SettleEvents s.cfg evs ∧ Answered s evs ∧ settle s = busAfter s evs := by
  unfold settle SettleEvents
  cases s.cfg.settleMode with
  | fixed => exact ⟨_, rfl, Answered.of_statusReads_nil rfl, emit_eq_busAfter s _ rfl (by simp)⟩
  | poll => exact pollSettle_spec _ s

/-- A port write is `busAfter` with a port write's history (R101). -/
theorem portWrite_spec (p : Port) (r v : Byte) (s : State) : ∃ evs,
    PortWriteEvents s.cfg (p, r, v) evs ∧ Answered s evs ∧ portWrite p r v s = busAfter s evs := by
  obtain ⟨e1, h1, a1, q1⟩ := settle_spec (memWrite (addrLoc p) r s)
  obtain ⟨e2, h2, a2, q2⟩ := settle_spec (memWrite (dataLoc p) v (settle (memWrite (addrLoc p) r s)))
  rw [memWrite_eq_busAfter] at a1 q1 h1
  rw [memWrite_eq_busAfter] at a2 q2 h2
  rw [memWrite_eq_busAfter s, q1] at a2 q2 h2
  simp only [busAfter_busAfter] at a2 q2 q1
  refine ⟨_, ⟨e1, e2, h1, h2, rfl⟩, ?_, ?_⟩
  · refine Answered.append (Answered.append (Answered.append (Answered.of_statusReads_nil rfl) a1)
      (Answered.of_statusReads_nil rfl)) ?_
    simpa using a2
  · rw [portWrite, memWrite_eq_busAfter, memWrite_eq_busAfter s, q1]
    rw [busAfter_busAfter, q2]

/-! ### AfterWrites -/

theorem AfterWrites.refl : AfterWrites s [] s := ⟨[], rfl, Answered.nil s, (busAfter_nil s).symm⟩

variable {s} {u v : State} {ws ws' : List (Port × Byte × Byte)}

theorem WriteEvents.append {k : Config} {e e' : List Event} (h : WriteEvents k ws e) (h' : WriteEvents k ws' e') :
    WriteEvents k (ws ++ ws') (e ++ e') := by
  induction ws generalizing e with
  | nil => obtain rfl : e = [] := h; simpa using h'
  | cons w ws ih =>
    obtain ⟨e1, e2, h1, h2, rfl⟩ := h
    exact ⟨e1, e2 ++ e', h1, ih h2, by simp⟩

theorem AfterWrites.trans (h : AfterWrites s ws u) (h' : AfterWrites u ws' v) : AfterWrites s (ws ++ ws') v := by
  obtain ⟨e, w, a, rfl⟩ := h
  obtain ⟨e', w', a', rfl⟩ := h'
  exact ⟨e ++ e', w.append w', a.append a', busAfter_busAfter s e e'⟩

/-- A port write is exactly that one write (R101). -/
theorem afterWrites_portWrite (p : Port) (r v : Byte) (s : State) : AfterWrites s [(p, r, v)] (portWrite p r v s) := by
  obtain ⟨e, w, a, q⟩ := portWrite_spec p r v s
  exact ⟨e, ⟨e, [], w, rfl, by simp⟩, a, q⟩

theorem AfterWrites.congr_writes (h : AfterWrites s ws u) (e : ws = ws') : AfterWrites s ws' u := e ▸ h

theorem AfterWrites.snoc (h : AfterWrites s ws u) (p : Port) (r x : Byte) :
    AfterWrites s (ws ++ [(p, r, x)]) (portWrite p r x u) := h.trans (afterWrites_portWrite p r x u)

theorem AfterWrites.cfg_eq (h : AfterWrites s ws u) : u.cfg = s.cfg := by obtain ⟨e, -, -, rfl⟩ := h; rfl
theorem AfterWrites.stream_eq (h : AfterWrites s ws u) : u.stream = s.stream := by obtain ⟨e, -, -, rfl⟩ := h; rfl
theorem AfterWrites.cp_eq (h : AfterWrites s ws u) : u.cp = s.cp := by obtain ⟨e, -, -, rfl⟩ := h; rfl
theorem AfterWrites.ch_eq (h : AfterWrites s ws u) : u.ch = s.ch := by obtain ⟨e, -, -, rfl⟩ := h; rfl
theorem AfterWrites.env_eq (h : AfterWrites s ws u) : u.env = s.env := by obtain ⟨e, -, -, rfl⟩ := h; rfl
theorem AfterWrites.vib_eq (h : AfterWrites s ws u) : u.vib = s.vib := by obtain ⟨e, -, -, rfl⟩ := h; rfl
theorem AfterWrites.out_eq (h : AfterWrites s ws u) : u.out = s.out := by obtain ⟨e, -, -, rfl⟩ := h; rfl

/-- Port writes do not depend on the tables, so a table written before them may be written after them. -/
theorem AfterWrites.setChan (h : AfterWrites s ws u) (c : Fin 6) (x : ChState) :
    AfterWrites (setChan c x s) ws (setChan c x u) := by
  obtain ⟨e, w, a, rfl⟩ := h
  exact ⟨e, w, a, rfl⟩

theorem AfterWrites.setEnv (h : AfterWrites s ws u) (c : Fin 6) (x : EnvState) :
    AfterWrites (setEnv c x s) ws (setEnv c x u) := by
  obtain ⟨e, w, a, rfl⟩ := h
  exact ⟨e, w, a, rfl⟩

theorem AfterWrites.setVib (h : AfterWrites s ws u) (c : Fin 6) (x : VibState) :
    AfterWrites (setVib c x s) ws (setVib c x u) := by
  obtain ⟨e, w, a, rfl⟩ := h
  exact ⟨e, w, a, rfl⟩

/-- The bytes written depend only on the list of port writes: not on the settle mode, not on the answers (R104). -/
theorem WriteEvents.busWrites_eq {k : Config} {evs : List Event} (h : WriteEvents k ws evs) :
    busWrites evs = ws.flatMap fun w => [(addrLoc w.1, w.2.1), (dataLoc w.1, w.2.2)] := by
  have hs : ∀ {e}, SettleEvents k e → busWrites e = [] := by
    intro e he
    unfold SettleEvents at he
    cases hm : k.settleMode <;> rw [hm] at he
    · subst he; rfl
    · rcases he with ⟨busy, ready, -, -, -, rfl⟩ | ⟨busy, -, -, rfl⟩ <;> simp
  induction ws generalizing evs with
  | nil => obtain rfl : evs = [] := h; rfl
  | cons w ws ih =>
    obtain ⟨e1, e2, ⟨s1, s2, h1, h2, rfl⟩, h3, rfl⟩ := h
    simp [hs h1, hs h2, ih h3]

/-! ### The fields a port write keeps -/

variable (s) (p : Port) (r x : Byte)

@[simp] theorem portWrite_cfg : (portWrite p r x s).cfg = s.cfg := (afterWrites_portWrite p r x s).cfg_eq
@[simp] theorem portWrite_stream : (portWrite p r x s).stream = s.stream := (afterWrites_portWrite p r x s).stream_eq
@[simp] theorem portWrite_cp : (portWrite p r x s).cp = s.cp := (afterWrites_portWrite p r x s).cp_eq
@[simp] theorem portWrite_ch : (portWrite p r x s).ch = s.ch := (afterWrites_portWrite p r x s).ch_eq
@[simp] theorem portWrite_env : (portWrite p r x s).env = s.env := (afterWrites_portWrite p r x s).env_eq
@[simp] theorem portWrite_vib : (portWrite p r x s).vib = s.vib := (afterWrites_portWrite p r x s).vib_eq
@[simp] theorem portWrite_out : (portWrite p r x s).out = s.out := (afterWrites_portWrite p r x s).out_eq
@[simp] theorem portWrite_chan (c : Fin 6) : (portWrite p r x s).chan c = s.chan c := by simp [State.chan]
@[simp] theorem portWrite_envOf (c : Fin 6) : (portWrite p r x s).envOf c = s.envOf c := by simp [State.envOf]
@[simp] theorem portWrite_vibOf (c : Fin 6) : (portWrite p r x s).vibOf c = s.vibOf c := by simp [State.vibOf]

end Sys2Proof.Machine
end

