-- ==== Sys2Proof/Laws/Decode.lean ====
section
/-! SUPPORT. The decoder's tables and its reading of bytes, each said once (spec/30_encoding.md R71, R72, R77). -/

namespace Sys2Proof

theorem byteAt_lt (bs : List Byte) (k : Nat) : byteAt bs k < 256 := (bs.getD k 0).isLt

theorem halfAt_lt (bs : List Byte) (k : Nat) : halfAt bs k < 65536 := by
  have := byteAt_lt bs k
  have := byteAt_lt bs (k + 1)
  unfold halfAt
  omega

/-- An operand byte read is the byte that stands there. -/
theorem toByte_byteAt (bs : List Byte) (k : Nat) (h : k < bs.length) : toByte (byteAt bs k) = bs[k] := by
  simp [toByte, byteAt, h]

/-- A 16-bit operand read is the two bytes that stand there, high byte first. -/
theorem toBytes16_halfAt (bs : List Byte) (k : Nat) (h : k + 1 < bs.length) :
    toBytes16 (halfAt bs k) = [bs[k], bs[k + 1]] := by
  have := byteAt_lt bs k
  have := byteAt_lt bs (k + 1)
  have e1 : halfAt bs k / 256 = byteAt bs k := by unfold halfAt; omega
  have e2 : toByte (halfAt bs k) = toByte (byteAt bs (k + 1)) := by
    apply BitVec.eq_of_toNat_eq
    simp [toByte, halfAt]
  rw [toBytes16, e1, e2, toByte_byteAt _ _ h, toByte_byteAt bs k (by omega)]

theorem toByte_toNat {n : Nat} (h : fits8 n = true) : (toByte n).toNat = n := by
  simp only [fits8, decide_eq_true_eq] at h
  simp only [toByte, BitVec.toNat_ofNat]
  omega

set_option maxRecDepth 8000 in
/-- An opcode byte is reserved exactly when R71's table has no row for it. -/
theorem headerLength_none (n : Nat) (h : n < 256) :
    headerLength n = none ↔ n ∉ Machine.opcodeLengths.map Prod.fst :=
  (by decide : ∀ n < 256, headerLength n = none ↔ n ∉ Machine.opcodeLengths.map Prod.fst) n h

theorem headerLength_table : ∀ p ∈ Machine.opcodeLengths, headerLength p.1 = some p.2 := by decide

/-! ### PLAYBUF's `len` (R73) -/

theorem bufferLen_of_lt {samples : List Nat} (h : samples.length < 65536) : bufferLen samples = samples.length :=
  Nat.mod_eq_of_lt h

theorem bufferLen_lt (samples : List Nat) : bufferLen samples < 65536 := Nat.mod_lt _ (by decide)

theorem length_take_bufferLen (samples : List Nat) : (samples.take (bufferLen samples)).length = bufferLen samples :=
  List.length_take_of_le (Nat.mod_le _ _)

end Sys2Proof
end

