-- ==== Sys2Proof/Laws/Operands.lean ====
section
/-! SUPPORT. Operand checks, the addressing mappings and the register byte formats, each said once in plain arithmetic. -/

namespace Sys2Proof.Machine

/-! ### Operand checks -/

theorem withChannel_fin (c : Fin 6) (s : State) (k : Fin 6 → Result) : withChannel c.val s k = k c := by
  simp [withChannel]

theorem withChannel_ge {ch : Nat} (h : 6 ≤ ch) (s : State) (k : Fin 6 → Result) :
    withChannel ch s k = .refused (.badChannel s.cp) := by
  simp [withChannel, refuse, Nat.not_lt.mpr h]

theorem withOperator_fin (o : Fin 4) (s : State) (k : Fin 4 → Result) : withOperator o.val s k = k o := by
  simp [withOperator]

theorem withOperator_ge {op : Nat} (h : 4 ≤ op) (s : State) (k : Fin 4 → Result) :
    withOperator op s k = .refused (.badOperator s.cp) := by
  simp [withOperator, refuse, Nat.not_lt.mpr h]

theorem withPort_ge {port : Nat} (h : 2 ≤ port) (s : State) (k : Port → Result) :
    withPort port s k = .refused (.badPort s.cp) := by
  match port, h with
  | n + 2, _ => rfl

theorem withEnvSpeed_legal {n : Nat} {s : State} (h : 1 ≤ n ∧ n < 2 ^ s.cfg.envSpeedWidth) (k : Nat → Result) :
    withEnvSpeed n s k = k n := by
  simp [withEnvSpeed, h]

theorem withEnvSpeed_illegal {n : Nat} {s : State} (h : ¬(1 ≤ n ∧ n < 2 ^ s.cfg.envSpeedWidth)) (k : Nat → Result) :
    withEnvSpeed n s k = .refused (.badEnvSpeed s.cp) := by
  simp only [withEnvSpeed, h, if_false, refuse]

theorem withVibSpeed_legal {n : Nat} (h : 1 ≤ n ∧ n ≤ 8) (s : State) (k : BitVec 4 → Result) :
    withVibSpeed n s k = k (BitVec.ofNat _ n) := by
  simp [withVibSpeed, h, mask]

theorem withVibSpeed_illegal {n : Nat} (h : ¬(1 ≤ n ∧ n ≤ 8)) (s : State) (k : BitVec 4 → Result) :
    withVibSpeed n s k = .refused (.badVibSpeed s.cp) := by
  simp only [withVibSpeed, h, if_false, refuse]

theorem withVibrato_present {c : Fin 6} {s : State} (h : (s.vibOf c).present = true) (k : Result) :
    withVibrato c s k = k := by
  simp [withVibrato, h]

theorem withVibrato_absent {c : Fin 6} {s : State} (h : (s.vibOf c).present = false) (k : Result) :
    withVibrato c s k = .refused (.vibAbsent s.cp) := by
  simp [withVibrato, h, refuse]

/-! ### Operator addressing -/

theorem route_port (c : Fin 6) : (route c).1 = if c.val < 3 then .p0 else .p1 := by
  revert c; decide

theorem route_local (c : Fin 6) : (route c).2 = c.val % 3 := by
  revert c; decide

theorem regOffset_bits (o : Fin 4) : regOffset o = o.val % 2 * 8 + o.val / 2 * 4 := by
  revert o; decide

/-- A per-channel register's write is `chanWrite` (R124). -/
theorem chanWrite_eq (c : Fin 6) (base v : Byte) (n : Nat) (h : v = BitVec.ofNat 8 n) :
    ((route c).1, chReg base c, v) = chanWrite c base n := by
  simp only [chanWrite, chReg, route_port, route_local, h]

/-- A per-operator register's write is `operWrite` (R125). -/
theorem operWrite_eq (c : Fin 6) (o : Fin 4) (base v : Byte) (n : Nat) (h : v = BitVec.ofNat 8 n) :
    ((route c).1, opReg base c o, v) = operWrite c o base n := by
  simp only [operWrite, opReg, route_port, route_local, regOffset_bits, h]

theorem keysel_arith (c : Fin 6) : keysel c = BitVec.ofNat 8 (if c.val < 3 then c.val else c.val + 1) := by
  revert c; decide

/-! ### Register byte formats -/

/-- Packing a field above another that leaves its bits free is addition. -/
theorem pack_eq (a b : Byte) (k : Nat) (hb : b.toNat < 2 ^ k) (ha : a.toNat * 2 ^ k < 256) :
    (a <<< k) ||| b = BitVec.ofNat 8 (a.toNat * 2 ^ k + b.toNat) := by
  apply BitVec.eq_of_toNat_eq
  have hs : a.toNat <<< k % 256 = a.toNat <<< k := Nat.mod_eq_of_lt (by rwa [Nat.shiftLeft_eq])
  rw [BitVec.toNat_or, BitVec.toNat_shiftLeft, hs, ← Nat.shiftLeft_add_eq_or_of_lt hb, Nat.shiftLeft_eq,
    BitVec.toNat_ofNat]
  have hlt : a.toNat * 2 ^ k + b.toNat < 256 := by
    have h256 : a.toNat <<< k ||| b.toNat < 2 ^ 8 :=
      Nat.or_lt_two_pow (by rw [Nat.shiftLeft_eq]; exact ha) b.isLt
    rwa [← Nat.shiftLeft_add_eq_or_of_lt hb, Nat.shiftLeft_eq] at h256
  exact (Nat.mod_eq_of_lt hlt).symm

theorem setWidth8_ofNat (w n : Nat) :
    (BitVec.ofNat w n).setWidth 8 = BitVec.ofNat 8 (n % 2 ^ w) := by
  apply BitVec.eq_of_toNat_eq
  simp only [BitVec.toNat_setWidth, BitVec.toNat_ofNat]

theorem bit_mask1 (n : Nat) : bit (mask1 n) = BitVec.ofNat 8 (n % 2) := by
  rcases Nat.mod_two_eq_zero_or_one n with h | h <;>
    simp [bit, mask1, Nat.testBit_zero, h]

theorem fAlgFb_arith (a f : BitVec 3) : fAlgFb a f = BitVec.ofNat 8 (f.toNat * 8 + a.toNat) := by
  revert a f; decide

theorem fPan_arith (l r : Bool) (a : BitVec 2) (m : BitVec 3) :
    fPan l r a m = BitVec.ofNat 8 (l.toNat * 128 + r.toNat * 64 + a.toNat * 16 + m.toNat) := by
  revert l r a m; decide

theorem fFreqHi_arith (b : BitVec 3) (n : BitVec 11) :
    fFreqHi b n = BitVec.ofNat 8 (b.toNat * 8 + n.toNat / 256) := by
  have hn := n.isLt
  have hb := b.isLt
  have h1 : (BitVec.setWidth 8 (n >>> 8)).toNat = n.toNat / 256 := by
    simp only [BitVec.toNat_setWidth, BitVec.toNat_ushiftRight, Nat.shiftRight_eq_div_pow]; omega
  have h2 : (BitVec.setWidth 8 b).toNat = b.toNat := by
    simp only [BitVec.toNat_setWidth]; omega
  rw [fFreqHi, pack_eq _ _ 3 (by rw [h1]; omega) (by rw [h2]; omega), h1, h2]
  rfl

theorem fFreqLo_arith (n : BitVec 11) : fFreqLo n = BitVec.ofNat 8 (n.toNat % 256) := by
  apply BitVec.eq_of_toNat_eq
  simp only [fFreqLo, BitVec.toNat_setWidth, BitVec.toNat_ofNat]; omega

theorem fKey_arith (m : BitVec 4) (c : Fin 6) :
    fKey m c = BitVec.ofNat 8 (m.toNat * 16 + if c.val < 3 then c.val else c.val + 1) := by
  revert m c; decide

theorem fDtMul_arith (d : BitVec 3) (m : BitVec 4) : fDtMul d m = BitVec.ofNat 8 (d.toNat * 16 + m.toNat) := by
  revert d m; decide

theorem fTl_arith (t : BitVec 7) : fTl t = BitVec.ofNat 8 t.toNat := by
  revert t; decide

theorem fRsAr_arith (r : BitVec 2) (a : BitVec 5) : fRsAr r a = BitVec.ofNat 8 (r.toNat * 64 + a.toNat) := by
  revert r a; decide

theorem fAmD1r_arith (a : Bool) (d : BitVec 5) : fAmD1r a d = BitVec.ofNat 8 (a.toNat * 128 + d.toNat) := by
  revert a d; decide

theorem fD2r_arith (d : BitVec 5) : fD2r d = BitVec.ofNat 8 d.toNat := by
  revert d; decide

theorem fD1lRr_arith (s r : BitVec 4) : fD1lRr s r = BitVec.ofNat 8 (s.toNat * 16 + r.toNat) := by
  revert s r; decide

theorem fSsgEg_arith (g : BitVec 4) : fSsgEg g = BitVec.ofNat 8 g.toNat := by
  revert g; decide

theorem fTmrAHi_arith (v : BitVec 10) : fTmrAHi v = BitVec.ofNat 8 (v.toNat / 4) := by
  apply BitVec.eq_of_toNat_eq
  simp only [fTmrAHi, BitVec.toNat_setWidth, BitVec.toNat_ushiftRight, Nat.shiftRight_eq_div_pow,
    BitVec.toNat_ofNat]

theorem fTmrALo_arith (v : BitVec 10) : fTmrALo v = BitVec.ofNat 8 (v.toNat % 4) := by
  apply BitVec.eq_of_toNat_eq
  have h : (BitVec.setWidth 8 v).toNat &&& 3 = (BitVec.setWidth 8 v).toNat % 4 :=
    Nat.and_two_pow_sub_one_eq_mod _ 2
  rw [fTmrALo, BitVec.toNat_and, show (0x3 : Byte).toNat = 3 from rfl, h]
  simp only [BitVec.toNat_setWidth, BitVec.toNat_ofNat]
  omega

end Sys2Proof.Machine
end

