-- ==== Sys2Proof/Laws/Engines.lean ====
section
/-! SUPPORT. What the procedures shared by several commands do, said once each: `setFrequency`, `setTotalLevel`, one
operator of a patch, the two ticks and updates, one channel of a frame, PLAYBUF's loop. -/

namespace Sys2Proof.Machine

variable (s : State)

/-! ### setFrequency (R146) -/

theorem setFrequency_spec (c : Fin 6) (b : BitVec 3) (n : BitVec 11) : ∃ u,
    AfterWrites s (freqWrites s.cfg c b.toNat n.toNat) u ∧
      setFrequency c b n s = setChan c { s.chan c with block := b, fnum := n } u := by
  refine ⟨_, ((afterWrites_portWrite (route c).1 (chReg s.cfg.regFreqHi c) (fFreqHi b n) s).snoc
    (route c).1 (chReg s.cfg.regFreqLo c) (fFreqLo n)).congr_writes ?_, ?_⟩
  · simp only [freqWrites, List.cons_append, List.nil_append,
      chanWrite_eq c _ _ _ (fFreqHi_arith b n), chanWrite_eq c _ _ _ (fFreqLo_arith n)]
  · simp [setFrequency]

@[simp] theorem setFrequency_cfg (c : Fin 6) (b : BitVec 3) (n : BitVec 11) :
    (setFrequency c b n s).cfg = s.cfg := by simp [setFrequency]
@[simp] theorem setFrequency_stream (c : Fin 6) (b : BitVec 3) (n : BitVec 11) :
    (setFrequency c b n s).stream = s.stream := by simp [setFrequency]
@[simp] theorem setFrequency_cp (c : Fin 6) (b : BitVec 3) (n : BitVec 11) :
    (setFrequency c b n s).cp = s.cp := by simp [setFrequency]
@[simp] theorem setFrequency_out (c : Fin 6) (b : BitVec 3) (n : BitVec 11) :
    (setFrequency c b n s).out = s.out := by simp [setFrequency]
@[simp] theorem setFrequency_env (c : Fin 6) (b : BitVec 3) (n : BitVec 11) :
    (setFrequency c b n s).env = s.env := by simp [setFrequency]
@[simp] theorem setFrequency_vib (c : Fin 6) (b : BitVec 3) (n : BitVec 11) :
    (setFrequency c b n s).vib = s.vib := by simp [setFrequency]
@[simp] theorem setFrequency_envOf (c d : Fin 6) (b : BitVec 3) (n : BitVec 11) :
    (setFrequency c b n s).envOf d = s.envOf d := by simp [setFrequency]
@[simp] theorem setFrequency_vibOf (c d : Fin 6) (b : BitVec 3) (n : BitVec 11) :
    (setFrequency c b n s).vibOf d = s.vibOf d := by simp [setFrequency]
@[simp] theorem setFrequency_chan (c d : Fin 6) (b : BitVec 3) (n : BitVec 11) :
    (setFrequency c b n s).chan d = if c = d then { s.chan c with block := b, fnum := n } else s.chan d := by
  simp [setFrequency]

/-! ### setTotalLevel (R157) -/

theorem setTotalLevel_spec (c : Fin 6) (o : Fin 4) (t : BitVec 7) : ∃ u,
    AfterWrites s [operWrite c o s.cfg.regTl t.toNat] u ∧
      setTotalLevel c o t s =
        setChan c ((s.chan c).setOper o { (s.chan c).oper o with totalLevel := t }) u := by
  refine ⟨_, (afterWrites_portWrite (route c).1 (opReg s.cfg.regTl c o) (fTl t) s).congr_writes ?_, ?_⟩
  · rw [operWrite_eq c o _ _ _ (fTl_arith t)]
  · simp [setTotalLevel]

@[simp] theorem setTotalLevel_cfg (c : Fin 6) (o : Fin 4) (t : BitVec 7) :
    (setTotalLevel c o t s).cfg = s.cfg := by simp [setTotalLevel]
@[simp] theorem setTotalLevel_stream (c : Fin 6) (o : Fin 4) (t : BitVec 7) :
    (setTotalLevel c o t s).stream = s.stream := by simp [setTotalLevel]
@[simp] theorem setTotalLevel_cp (c : Fin 6) (o : Fin 4) (t : BitVec 7) :
    (setTotalLevel c o t s).cp = s.cp := by simp [setTotalLevel]
@[simp] theorem setTotalLevel_out (c : Fin 6) (o : Fin 4) (t : BitVec 7) :
    (setTotalLevel c o t s).out = s.out := by simp [setTotalLevel]
@[simp] theorem setTotalLevel_env (c : Fin 6) (o : Fin 4) (t : BitVec 7) :
    (setTotalLevel c o t s).env = s.env := by simp [setTotalLevel]
@[simp] theorem setTotalLevel_vib (c : Fin 6) (o : Fin 4) (t : BitVec 7) :
    (setTotalLevel c o t s).vib = s.vib := by simp [setTotalLevel]
@[simp] theorem setTotalLevel_envOf (c d : Fin 6) (o : Fin 4) (t : BitVec 7) :
    (setTotalLevel c o t s).envOf d = s.envOf d := by simp [setTotalLevel]
@[simp] theorem setTotalLevel_vibOf (c d : Fin 6) (o : Fin 4) (t : BitVec 7) :
    (setTotalLevel c o t s).vibOf d = s.vibOf d := by simp [setTotalLevel]
@[simp] theorem setTotalLevel_chan (c d : Fin 6) (o : Fin 4) (t : BitVec 7) :
    (setTotalLevel c o t s).chan d =
      if c = d then (s.chan c).setOper o { (s.chan c).oper o with totalLevel := t } else s.chan d := by
  simp [setTotalLevel]

/-! ### One operator of a patch (R153) -/

theorem loadOper_spec (c : Fin 6) (o : Fin 4) (p : PatchOp) : ∃ u,
    AfterWrites s (patchOpWrites s.cfg c o p) u ∧
      loadOper c o (operOfPatch p) s = setChan c ((s.chan c).setOper o (operOfPatch p)) u := by
  have tn : ∀ (w n : Nat), (mask w n).toNat = n % 2 ^ w := fun w n => BitVec.toNat_ofNat n w
  have tb : ∀ n : Nat, (mask1 n).toNat = n % 2 := by
    intro n
    rcases Nat.mod_two_eq_zero_or_one n with h | h <;> simp [mask1, Nat.testBit_zero, h]
  refine ⟨_, ((((((((afterWrites_portWrite (route c).1 (opReg s.cfg.regDtMul c o)
      (fDtMul (operOfPatch p).detune (operOfPatch p).multiply) s).snoc
    (route c).1 (opReg s.cfg.regTl c o) (fTl (operOfPatch p).totalLevel)).snoc
    (route c).1 (opReg s.cfg.regRsAr c o) (fRsAr (operOfPatch p).rateScale (operOfPatch p).attackRate)).snoc
    (route c).1 (opReg s.cfg.regAmD1r c o) (fAmD1r (operOfPatch p).amEnable (operOfPatch p).decay1Rate)).snoc
    (route c).1 (opReg s.cfg.regD2r c o) (fD2r (operOfPatch p).decay2Rate)).snoc
    (route c).1 (opReg s.cfg.regD1lRr c o) (fD1lRr (operOfPatch p).sustainLevel (operOfPatch p).releaseRate)).snoc
    (route c).1 (opReg s.cfg.regSsgEg c o) (fSsgEg (operOfPatch p).ssgEg))).congr_writes ?_, ?_⟩
  · simp only [patchOpWrites, List.cons_append, List.nil_append, operOfPatch,
      operWrite_eq c o _ _ _ (fDtMul_arith _ _), operWrite_eq c o _ _ _ (fTl_arith _),
      operWrite_eq c o _ _ _ (fRsAr_arith _ _), operWrite_eq c o _ _ _ (fAmD1r_arith _ _),
      operWrite_eq c o _ _ _ (fD2r_arith _), operWrite_eq c o _ _ _ (fD1lRr_arith _ _),
      operWrite_eq c o _ _ _ (fSsgEg_arith _), tn, tb, Nat.reducePow]
  · simp [loadOper]

@[simp] theorem loadOper_cfg (c : Fin 6) (o : Fin 4) (x : OpState) : (loadOper c o x s).cfg = s.cfg := by
  simp [loadOper]

@[simp] theorem loadOper_chan (c d : Fin 6) (o : Fin 4) (x : OpState) :
    (loadOper c o x s).chan d = if c = d then (s.chan c).setOper o x else s.chan d := by
  simp [loadOper]

/-! ### The envelope tick (R184) and update (R189) -/

theorem stepToward_toNat (a t : BitVec 7) :
    (stepToward a t).toNat =
      if t.toNat < a.toNat then a.toNat - 1 else if a.toNat < t.toNat then a.toNat + 1 else a.toNat := by
  have ha := a.isLt
  have ht := t.isLt
  unfold stepToward
  simp only [BitVec.lt_def]
  split
  · rw [BitVec.toNat_sub_of_le (by rw [BitVec.le_def]; change 1 ≤ _; omega)]; rfl
  · split
    · rw [BitVec.toNat_add_of_lt (by change _ + 1 < _; omega)]; rfl
    · rfl

theorem tickEnv_inactive {e : EnvState} (h : e.active = false) : tickEnv e = (e, false) := by
  simp [tickEnv, h]

theorem tickEnv_spec (e : EnvState) : EnvTicked e (tickEnv e).1 (tickEnv e).2 := by
  unfold EnvTicked tickEnv
  cases ha : e.active with
  | false => simp
  | true =>
    by_cases hs : e.speed ≤ e.counter + 1
    · have hn : ¬ e.counter + 1 < e.speed := by omega
      simp [hs, hn, stepToward_toNat]
    · have hn : e.counter + 1 < e.speed := by omega
      simp [hs, hn]

/-- What one `envUpdate` does: the tick, and one port write exactly when the volume changed. -/
theorem envUpdate_spec (c : Fin 6) : ∃ u,
    AfterWrites s
      (if (tickEnv (s.envOf c)).2 then
        [operWrite c (s.chan c).carrier s.cfg.regTl (tickEnv (s.envOf c)).1.current.toNat] else []) u ∧
    envUpdate c s =
      setEnv c (tickEnv (s.envOf c)).1
        (if (tickEnv (s.envOf c)).2 then
          setChan c ((s.chan c).setOper (s.chan c).carrier
            { (s.chan c).oper (s.chan c).carrier with totalLevel := (tickEnv (s.envOf c)).1.current }) u
        else u) := by
  by_cases h : (tickEnv (s.envOf c)).2 = true
  · obtain ⟨u, hu, e⟩ := setTotalLevel_spec s c (s.chan c).carrier (tickEnv (s.envOf c)).1.current
    obtain ⟨v, hv, e'⟩ := setTotalLevel_spec (envTick c s) c (s.chan c).carrier (tickEnv (s.envOf c)).1.current
    have hv' : AfterWrites s [operWrite c (s.chan c).carrier s.cfg.regTl (tickEnv (s.envOf c)).1.current.toNat]
        (setEnv c (s.envOf c) v) := by
      have := hv.setEnv c (s.envOf c)
      simpa [envTick, setEnv_setEnv, setEnv_self] using this
    refine ⟨setEnv c (s.envOf c) v, by simpa [h] using hv', ?_⟩
    have hve : setEnv c (tickEnv (s.envOf c)).1 v = v := by
      have : v.envOf c = (tickEnv (s.envOf c)).1 := by
        have := hv.env_eq
        simp only [State.envOf, this, envTick, setEnv, Fin.getElem_fin, Vector.getElem_set_self]
      rw [← this]; exact setEnv_self v c
    simp only [envUpdate, envChanged, h, if_true]
    simp only [envTick, setEnv_chan, setEnv_envOf, if_true] at e' ⊢
    rw [e', setEnv_setChan, setEnv_setEnv, hve]
  · refine ⟨s, by simpa [h] using AfterWrites.refl s, ?_⟩
    simp [envUpdate, envChanged, h, envTick]

/-! ### The vibrato tick (R203) and update (R208) -/

theorem nextPhase_eq (v : VibState) : nextPhase v = BitVec.ofNat 6 (v.phase.toNat + v.speed.toNat) := by
  have hv := v.speed.isLt
  apply BitVec.eq_of_toNat_eq
  simp only [nextPhase, BitVec.toNat_add, BitVec.toNat_setWidth, BitVec.toNat_ofNat]; omega

theorem clipFnum_toNat (b : BitVec 11) (off : Int) :
    ((clipFnum b off).toNat : Int) = max 0 (min 2047 ((b.toNat : Int) + off)) := by
  unfold clipFnum
  rw [BitVec.toNat_ofNat]; omega

theorem vibFnum_toNat (c : Fin 6) : ((vibFnum c s).toNat : Int) = vibratoFnum s.cfg.vibOffset (s.vibOf c) := by
  rw [vibFnum, clipFnum_toNat, nextPhase_eq, vibratoFnum]

/-- What one `vibUpdate` does: the phase, and the two writes of the frequency. -/
theorem vibUpdate_spec (c : Fin 6) : ∃ u,
    AfterWrites s (freqWrites s.cfg c (s.vibOf c).baseBlock.toNat (vibFnum c s).toNat) u ∧
    vibUpdate c s =
      setVib c { s.vibOf c with phase := nextPhase (s.vibOf c) }
        (setChan c { s.chan c with block := (s.vibOf c).baseBlock, fnum := vibFnum c s } u) := by
  obtain ⟨v, hv, e⟩ := setFrequency_spec (vibTick c s) c (s.vibOf c).baseBlock (vibFnum c s)
  have hv' := hv.setVib c (s.vibOf c)
  simp only [vibTick, setVib_setVib, setVib_self, setVib_cfg] at hv'
  refine ⟨_, hv', ?_⟩
  have hve : setVib c { s.vibOf c with phase := nextPhase (s.vibOf c) } v = v := by
    have : v.vibOf c = { s.vibOf c with phase := nextPhase (s.vibOf c) } := by
      have := hv.vib_eq
      simp only [State.vibOf, this, vibTick, setVib, Fin.getElem_fin, Vector.getElem_set_self]
    rw [← this]; exact setVib_self v c
  rw [vibUpdate, e, setVib_setChan, setVib_setVib, hve]
  simp [vibTick]

/-! ### PLAYBUF's loop (R233) -/

theorem playSamples_spec (d : BitVec 16) (xs : List Nat) (s : State) : ∃ evs,
    PlayEvents s.cfg d (xs.map (BitVec.ofNat 8)) evs ∧ Answered s evs ∧ playSamples d xs s = busAfter s evs := by
  induction xs generalizing s with
  | nil => exact ⟨[], rfl, Answered.nil s, (busAfter_nil s).symm⟩
  | cons x xs ih =>
    obtain ⟨e1, h1, a1, q1⟩ := portWrite_spec .p0 s.cfg.regDacData (mask 8 x) s
    have q2 : emit (.swait d) (portWrite .p0 s.cfg.regDacData (mask 8 x) s) = busAfter s (e1 ++ [.swait d]) := by
      rw [emit_eq_busAfter _ _ rfl (by simp), q1, busAfter_busAfter]
    obtain ⟨e2, h2, a2, q3⟩ := ih (busAfter s (e1 ++ [.swait d]))
    refine ⟨e1 ++ [.swait d] ++ e2, ⟨e1, e2, h1, h2, rfl⟩, ?_, ?_⟩
    · exact (a1.append (Answered.of_statusReads_nil rfl)).append a2
    · rw [playSamples, q2, q3, busAfter_busAfter]

/-- What PLAYBUF does (R233, R73): it runs to its end, its history the first `len` samples'. -/
theorem execPlaybuf_spec (div : Nat) (samples : List Nat) (s : State) : ∃ evs,
    PlayEvents s.cfg (BitVec.ofNat 16 div) ((samples.take (bufferLen samples)).map (BitVec.ofNat 8)) evs ∧
      Answered s evs ∧
      execPlaybuf div samples s = .next (advance (5 + bufferLen samples) (busAfter s evs)) := by
  obtain ⟨evs, h, a, q⟩ := playSamples_spec (BitVec.ofNat 16 div) (samples.take (bufferLen samples)) s
  exact ⟨evs, h, a, congrArg (fun u => Host.Outcome.next (advance (5 + bufferLen samples) u)) q⟩

/-- DAC_WAIT does not decrease as the divisor grows (R233). -/
theorem dacWait_mono (k : Config) {d e : BitVec 16} (h : d.toNat ≤ e.toNat) : dacWait k d ≤ dacWait k e := by
  unfold dacWait
  obtain ⟨n, hn⟩ := Nat.exists_eq_add_of_le h
  rw [hn, Nat.add_right_comm, @List.range_add (d.toNat + 1) n, List.map_append, List.sum_append]
  exact Nat.le_add_right _ _

theorem playSamples_cp (d : BitVec 16) (xs : List Nat) : (playSamples d xs s).cp = s.cp := by
  obtain ⟨evs, -, -, h⟩ := playSamples_spec d xs s
  rw [h]; rfl

theorem playSamples_out (d : BitVec 16) (xs : List Nat) : (playSamples d xs s).out = s.out := by
  obtain ⟨evs, -, -, h⟩ := playSamples_spec d xs s
  rw [h]; rfl

/-! ### What the ticks and updates leave alone -/

theorem tickEnv_keeps (e : EnvState) : (tickEnv e).1.target = e.target ∧ (tickEnv e).1.speed = e.speed := by
  unfold tickEnv
  split
  · split <;> simp
  · simp

theorem envUpdate_cp (c : Fin 6) : (envUpdate c s).cp = s.cp := by
  unfold envUpdate
  dsimp only
  split <;> simp [envTick]

theorem envUpdate_out (c : Fin 6) : (envUpdate c s).out = s.out := by
  unfold envUpdate
  dsimp only
  split <;> simp [envTick]

theorem envUpdate_envOf (c d : Fin 6) :
    (envUpdate c s).envOf d = if c = d then (tickEnv (s.envOf c)).1 else s.envOf d := by
  unfold envUpdate
  dsimp only
  split <;> simp [envTick]

theorem envUpdate_vibOf (c d : Fin 6) : (envUpdate c s).vibOf d = s.vibOf d := by
  unfold envUpdate
  dsimp only
  split <;> simp [envTick]

theorem envUpdate_chan (c d : Fin 6) :
    (envUpdate c s).chan d =
      if c = d ∧ (tickEnv (s.envOf c)).2 = true then
        (s.chan c).setOper (s.chan c).carrier
          { (s.chan c).oper (s.chan c).carrier with totalLevel := (tickEnv (s.envOf c)).1.current }
      else s.chan d := by
  unfold envUpdate envChanged
  dsimp only
  by_cases h : (tickEnv (s.envOf c)).2 = true <;> simp [h, envTick]

theorem vibUpdate_cp (c : Fin 6) : (vibUpdate c s).cp = s.cp := by simp [vibUpdate, vibTick]

theorem vibUpdate_out (c : Fin 6) : (vibUpdate c s).out = s.out := by simp [vibUpdate, vibTick]

theorem vibUpdate_envOf (c d : Fin 6) : (vibUpdate c s).envOf d = s.envOf d := by simp [vibUpdate, vibTick]

theorem vibUpdate_vibOf (c d : Fin 6) :
    (vibUpdate c s).vibOf d =
      if c = d then { s.vibOf c with phase := nextPhase (s.vibOf c) } else s.vibOf d := by
  simp [vibUpdate, vibTick]

theorem vibUpdate_chan (c d : Fin 6) :
    (vibUpdate c s).chan d =
      if c = d then { s.chan c with block := (s.vibOf c).baseBlock, fnum := vibFnum c s } else s.chan d := by
  simp [vibUpdate, vibTick]

/-- One channel of a frame moves only its own envelope (R265). -/
theorem frameChannel_envOf (c d : Fin 6) :
    (frameChannel c s).envOf d = if c = d then (tickEnv (s.envOf c)).1 else s.envOf d := by
  unfold frameChannel
  dsimp only
  split
  · rw [vibUpdate_envOf, envUpdate_envOf]
  · rw [envUpdate_envOf]

/-- One channel of a frame moves only its own vibrato, and only a present one (R265). -/
theorem frameChannel_vibOf (c d : Fin 6) :
    (frameChannel c s).vibOf d =
      if c = d ∧ (s.vibOf c).present = true then { s.vibOf c with phase := nextPhase (s.vibOf c) }
      else s.vibOf d := by
  unfold frameChannel
  dsimp only
  by_cases h : (s.vibOf c).present = true <;> simp [h, envUpdate_vibOf, vibUpdate_vibOf]

end Sys2Proof.Machine
end

