-- ==== Sys2Proof/Laws/Exec.lean ====
section
/-! SUPPORT. What a command is made of: a property that every building block keeps, every command that runs to its end
keeps (`exec_keeps`); and the same for blocks that write only what a command may write. -/

namespace Sys2Proof.Machine

/-- A property of states that every building block of a meaning keeps. -/
structure Kept (P : State → Prop) : Prop where
  portWrite : ∀ p r v s, P s → P (portWrite p r v s)
  memRead : ∀ s, P s → P (memRead s)
  wait : ∀ d s, P s → P (emit (.swait d) s)
  setChan : ∀ c x s, P s → P (setChan c x s)
  setEnv : ∀ c x s, P s → P (setEnv c x s)
  setVib : ∀ c x s, P s → P (setVib c x s)
  respond : ∀ bs s, P s → P (respond bs s)
  advance : ∀ n s, P s → P (advance n s)

variable {P : State → Prop}

theorem finish_next {n : Nat} {s t : State} (h : finish n s = .next t) : advance n s = t := by
  simpa [finish] using h

/-! ### An answer with a next state comes from legal operands -/

theorem withPort_next {port : Nat} {s t : State} {k : Port → Result} (h : withPort port s k = .next t) :
    ∃ p, k p = .next t := by
  rcases port with _ | _ | n
  · exact ⟨.p0, h⟩
  · exact ⟨.p1, h⟩
  · simp [withPort, refuse] at h

theorem withChannel_next {ch : Nat} {s t : State} {k : Fin 6 → Result} (h : withChannel ch s k = .next t) :
    ∃ c : Fin 6, ch = c.val ∧ k c = .next t := by
  unfold withChannel at h
  split at h
  · exact ⟨⟨ch, by assumption⟩, rfl, h⟩
  · simp [refuse] at h

theorem withOperator_next {op : Nat} {s t : State} {k : Fin 4 → Result} (h : withOperator op s k = .next t) :
    ∃ o : Fin 4, op = o.val ∧ k o = .next t := by
  unfold withOperator at h
  split at h
  · exact ⟨⟨op, by assumption⟩, rfl, h⟩
  · simp [refuse] at h

theorem withEnvSpeed_next {n : Nat} {s t : State} {k : Nat → Result} (h : withEnvSpeed n s k = .next t) :
    1 ≤ n ∧ n < 2 ^ s.cfg.envSpeedWidth ∧ k n = .next t := by
  unfold withEnvSpeed at h
  split at h
  · next hn => exact ⟨hn.1, hn.2, h⟩
  · simp [refuse] at h

theorem withVibSpeed_next {n : Nat} {s t : State} {k : BitVec 4 → Result} (h : withVibSpeed n s k = .next t) :
    1 ≤ n ∧ n ≤ 8 ∧ k (BitVec.ofNat _ n) = .next t := by
  unfold withVibSpeed at h
  split at h
  · exact ⟨by omega, by omega, h⟩
  · simp [refuse] at h

theorem withVibrato_next {c : Fin 6} {s t : State} {k : Result} (h : withVibrato c s k = .next t) :
    (s.vibOf c).present = true ∧ k = .next t := by
  unfold withVibrato at h
  split at h
  · exact ⟨by assumption, h⟩
  · simp [refuse] at h

/-! ### The procedures keep what their blocks keep -/

theorem Kept.setFrequency (k : Kept P) (c b n s) (h : P s) : P (setFrequency c b n s) :=
  k.setChan _ _ _ (k.portWrite _ _ _ _ (k.portWrite _ _ _ _ h))

theorem Kept.setTotalLevel (k : Kept P) (c o x s) (h : P s) : P (setTotalLevel c o x s) :=
  k.setChan _ _ _ (k.portWrite _ _ _ _ h)

theorem Kept.loadOper (k : Kept P) (c o x s) (h : P s) : P (loadOper c o x s) :=
  k.setChan _ _ _ (k.portWrite _ _ _ _ (k.portWrite _ _ _ _ (k.portWrite _ _ _ _ (k.portWrite _ _ _ _
    (k.portWrite _ _ _ _ (k.portWrite _ _ _ _ (k.portWrite _ _ _ _ h)))))))

theorem Kept.envUpdate (k : Kept P) (c s) (h : P s) : P (envUpdate c s) := by
  have ht : P (envTick c s) := k.setEnv _ _ _ h
  unfold Machine.envUpdate
  dsimp only
  split
  · exact k.setTotalLevel _ _ _ _ ht
  · exact ht

theorem Kept.vibUpdate (k : Kept P) (c s) (h : P s) : P (vibUpdate c s) := k.setFrequency _ _ _ _ (k.setVib _ _ _ h)

theorem Kept.frameChannel (k : Kept P) (c s) (h : P s) : P (frameChannel c s) := by
  unfold Machine.frameChannel
  dsimp only
  split
  · exact k.vibUpdate _ _ (k.envUpdate _ _ h)
  · exact k.envUpdate _ _ h

theorem Kept.frame (k : Kept P) (cs : List (Fin 6)) (s) (h : P s) :
    P (cs.foldl (fun t c => Machine.frameChannel c t) s) := by
  induction cs generalizing s with
  | nil => exact h
  | cons c cs ih => exact ih _ (k.frameChannel _ _ h)

theorem Kept.playSamples (k : Kept P) (d : BitVec 16) (xs : List Nat) (s) (h : P s) : P (playSamples d xs s) := by
  induction xs generalizing s with
  | nil => exact h
  | cons x xs ih => exact ih _ (k.wait _ _ (k.portWrite _ _ _ _ h))

theorem Kept.statusQuery (k : Kept P) (f : Config → Byte → Bool) (s) (h : P s) : P (statusQuery f s) :=
  k.respond _ _ (k.memRead _ h)

/-! ### Every command -/

/-- What every building block keeps, a command that runs to its end keeps. -/
theorem exec_keeps (k : Kept P) (i : Instr) {s t : State} (hs : P s) (h : exec i s = .next t) : P t := by
  cases i with
  | write port reg val =>
    simp only [exec, execWrite] at h
    obtain ⟨p, h⟩ := withPort_next h
    obtain rfl := finish_next h
    exact k.advance _ _ (k.portWrite _ _ _ _ hs)
  | busyq =>
    simp only [exec, execBusyq] at h
    obtain rfl := finish_next h
    exact k.advance _ _ (k.statusQuery _ _ hs)
  | regofs op =>
    simp only [exec, execRegofs] at h
    obtain ⟨o, -, h⟩ := withOperator_next h
    obtain rfl := finish_next h
    exact k.advance _ _ (k.respond _ _ hs)
  | chroute ch =>
    simp only [exec, execChroute] at h
    obtain ⟨c, -, h⟩ := withChannel_next h
    obtain rfl := finish_next h
    exact k.advance _ _ (k.respond _ _ hs)
  | opmap ch op =>
    simp only [exec, execOpmap] at h
    obtain ⟨c, -, h⟩ := withChannel_next h
    obtain ⟨o, -, h⟩ := withOperator_next h
    obtain rfl := finish_next h
    exact k.advance _ _ (k.respond _ _ hs)
  | setalg ch alg fb =>
    simp only [exec, execSetalg] at h
    obtain ⟨c, -, h⟩ := withChannel_next h
    obtain rfl := finish_next h
    exact k.advance _ _ (k.setChan _ _ _ (k.portWrite _ _ _ _ hs))
  | setpan ch left right ams pms =>
    simp only [exec, execSetpan] at h
    obtain ⟨c, -, h⟩ := withChannel_next h
    obtain rfl := finish_next h
    exact k.advance _ _ (k.setChan _ _ _ (k.portWrite _ _ _ _ hs))
  | setfreq ch block fnum =>
    simp only [exec, execSetfreq] at h
    obtain ⟨c, -, h⟩ := withChannel_next h
    obtain rfl := finish_next h
    exact k.advance _ _ (k.setFrequency _ _ _ _ hs)
  | keyon ch mask =>
    simp only [exec, execKeyon] at h
    obtain ⟨c, -, h⟩ := withChannel_next h
    obtain rfl := finish_next h
    exact k.advance _ _ (k.portWrite _ _ _ _ hs)
  | keyoff ch mask =>
    simp only [exec, execKeyoff] at h
    obtain ⟨c, -, h⟩ := withChannel_next h
    obtain rfl := finish_next h
    exact k.advance _ _ (k.portWrite _ _ _ _ hs)
  | loadpatch ch patch =>
    simp only [exec, execLoadpatch] at h
    obtain ⟨c, -, h⟩ := withChannel_next h
    obtain rfl := finish_next h
    exact k.advance _ _ (k.setChan _ _ _ (k.loadOper _ _ _ _ (k.loadOper _ _ _ _
      (k.loadOper _ _ _ _ (k.loadOper _ _ _ _ (k.portWrite _ _ _ _ (k.portWrite _ _ _ _ hs)))))))
  | settl ch op tl =>
    simp only [exec, execSettl] at h
    obtain ⟨c, -, h⟩ := withChannel_next h
    obtain ⟨o, -, h⟩ := withOperator_next h
    obtain rfl := finish_next h
    exact k.advance _ _ (k.setTotalLevel _ _ _ _ hs)
  | setcarrier ch op =>
    simp only [exec, execSetcarrier] at h
    obtain ⟨c, -, h⟩ := withChannel_next h
    obtain ⟨o, -, h⟩ := withOperator_next h
    obtain rfl := finish_next h
    exact k.advance _ _ (k.setChan _ _ _ hs)
  | getfreq ch =>
    simp only [exec, execGetfreq] at h
    obtain ⟨c, -, h⟩ := withChannel_next h
    obtain rfl := finish_next h
    exact k.advance _ _ (k.respond _ _ hs)
  | getvol ch =>
    simp only [exec, execGetvol] at h
    obtain ⟨c, -, h⟩ := withChannel_next h
    obtain rfl := finish_next h
    exact k.advance _ _ (k.respond _ _ hs)
  | getpatch ch =>
    simp only [exec, execGetpatch] at h
    obtain ⟨c, -, h⟩ := withChannel_next h
    obtain rfl := finish_next h
    exact k.advance _ _ (k.respond _ _ hs)
  | envattack ch target speed =>
    simp only [exec, execEnvattack] at h
    obtain ⟨c, -, h⟩ := withChannel_next h
    obtain ⟨-, -, h⟩ := withEnvSpeed_next h
    obtain rfl := finish_next h
    exact k.advance _ _ (k.setEnv _ _ _ hs)
  | envrelease ch speed =>
    simp only [exec, execEnvrelease] at h
    obtain ⟨c, -, h⟩ := withChannel_next h
    obtain ⟨-, -, h⟩ := withEnvSpeed_next h
    obtain rfl := finish_next h
    exact k.advance _ _ (k.setEnv _ _ _ hs)
  | envtick ch =>
    simp only [exec, execEnvtick] at h
    obtain ⟨c, -, h⟩ := withChannel_next h
    obtain rfl := finish_next h
    exact k.advance _ _ (k.respond _ _ (k.setEnv _ _ _ hs))
  | envreset ch =>
    simp only [exec, execEnvreset] at h
    obtain ⟨c, -, h⟩ := withChannel_next h
    obtain rfl := finish_next h
    exact k.advance _ _ (k.setEnv _ _ _ hs)
  | envupd ch =>
    simp only [exec, execEnvupd] at h
    obtain ⟨c, -, h⟩ := withChannel_next h
    obtain rfl := finish_next h
    exact k.advance _ _ (k.respond _ _ (k.envUpdate _ _ hs))
  | vibset ch block fnum depth speed =>
    simp only [exec, execVibset] at h
    obtain ⟨c, -, h⟩ := withChannel_next h
    obtain ⟨-, -, h⟩ := withVibSpeed_next h
    obtain rfl := finish_next h
    exact k.advance _ _ (k.setVib _ _ _ hs)
  | vibclr ch =>
    simp only [exec, execVibclr] at h
    obtain ⟨c, -, h⟩ := withChannel_next h
    obtain rfl := finish_next h
    exact k.advance _ _ (k.setVib _ _ _ hs)
  | vibtick ch =>
    simp only [exec, execVibtick] at h
    obtain ⟨c, -, h⟩ := withChannel_next h
    obtain ⟨-, h⟩ := withVibrato_next h
    obtain rfl := finish_next h
    exact k.advance _ _ (k.respond _ _ (k.setVib _ _ _ hs))
  | vibupd ch =>
    simp only [exec, execVibupd] at h
    obtain ⟨c, -, h⟩ := withChannel_next h
    obtain ⟨-, h⟩ := withVibrato_next h
    obtain rfl := finish_next h
    exact k.advance _ _ (k.respond _ _ (k.vibUpdate _ _ hs))
  | pbend cur tgt spd =>
    simp only [exec, execPbend] at h
    obtain rfl := finish_next h
    exact k.advance _ _ (k.respond _ _ hs)
  | dacen =>
    simp only [exec, execDacen] at h
    obtain rfl := finish_next h
    exact k.advance _ _ (k.portWrite _ _ _ _ hs)
  | dacdis =>
    simp only [exec, execDacdis] at h
    obtain rfl := finish_next h
    exact k.advance _ _ (k.portWrite _ _ _ _ hs)
  | playbuf div samples =>
    simp only [exec, execPlaybuf] at h
    obtain rfl := finish_next h
    exact k.advance _ _ (k.playSamples _ _ _ hs)
  | settmra val =>
    simp only [exec, execSettmra] at h
    obtain rfl := finish_next h
    exact k.advance _ _ (k.portWrite _ _ _ _ (k.portWrite _ _ _ _ hs))
  | settmrb val =>
    simp only [exec, execSettmrb] at h
    obtain rfl := finish_next h
    exact k.advance _ _ (k.portWrite _ _ _ _ hs)
  | tmrstart flags =>
    simp only [exec, execTmrstart] at h
    obtain rfl := finish_next h
    exact k.advance _ _ (k.portWrite _ _ _ _ hs)
  | tmrstop =>
    simp only [exec, execTmrstop] at h
    obtain rfl := finish_next h
    exact k.advance _ _ (k.portWrite _ _ _ _ hs)
  | tmraovf =>
    simp only [exec, execTmraovf] at h
    obtain rfl := finish_next h
    exact k.advance _ _ (k.statusQuery _ _ hs)
  | tmrbovf =>
    simp only [exec, execTmrbovf] at h
    obtain rfl := finish_next h
    exact k.advance _ _ (k.statusQuery _ _ hs)
  | frame =>
    simp only [exec, execFrame] at h
    obtain rfl := finish_next h
    exact k.advance _ _ (k.frame _ _ hs)

end Sys2Proof.Machine
end

