-- ==== Sys2Proof/Laws/PerInstr.lean ====
section
/-! SUPPORT. One law per command, for the host's case split over the 36 constructors: the family `PacketLength`, that the
packet length the decoder computes from a well-formed command's packet, whatever follows it, is the packet's own length
(spec/30_encoding.md R71, R74 step 3). -/

namespace Sys2Proof.Laws.PacketLength

/-- The decoder's packet length of the command's packet is the packet's length. -/
def Statement (i : Instr) : Prop :=
  ∀ rest : List Byte, i.wf = true → packetLength (encode i ++ rest) = some (encode i).length

theorem write (port reg val : Nat) : Statement (.write port reg val) := by
  intro rest _
  simp [packetLength, headerLength, byteAt, encode]

theorem busyq : Statement .busyq := by
  intro rest _
  simp [packetLength, headerLength, byteAt, encode]

theorem regofs (op : Nat) : Statement (.regofs op) := by
  intro rest _
  simp [packetLength, headerLength, byteAt, encode]

theorem chroute (ch : Nat) : Statement (.chroute ch) := by
  intro rest _
  simp [packetLength, headerLength, byteAt, encode]

theorem opmap (ch op : Nat) : Statement (.opmap ch op) := by
  intro rest _
  simp [packetLength, headerLength, byteAt, encode]

theorem setalg (ch alg fb : Nat) : Statement (.setalg ch alg fb) := by
  intro rest _
  simp [packetLength, headerLength, byteAt, encode]

theorem setpan (ch left right ams pms : Nat) : Statement (.setpan ch left right ams pms) := by
  intro rest _
  simp [packetLength, headerLength, byteAt, encode]

theorem setfreq (ch block fnum : Nat) : Statement (.setfreq ch block fnum) := by
  intro rest _
  simp [packetLength, headerLength, byteAt, encode, toBytes16]

theorem keyon (ch mask : Nat) : Statement (.keyon ch mask) := by
  intro rest _
  simp [packetLength, headerLength, byteAt, encode]

theorem keyoff (ch mask : Nat) : Statement (.keyoff ch mask) := by
  intro rest _
  simp [packetLength, headerLength, byteAt, encode]

theorem loadpatch (ch : Nat) (patch : Patch) : Statement (.loadpatch ch patch) := by
  intro rest _
  simp [packetLength, headerLength, byteAt, encode, encodePatch, encodePatchOp]

theorem settl (ch op tl : Nat) : Statement (.settl ch op tl) := by
  intro rest _
  simp [packetLength, headerLength, byteAt, encode]

theorem setcarrier (ch op : Nat) : Statement (.setcarrier ch op) := by
  intro rest _
  simp [packetLength, headerLength, byteAt, encode]

theorem getfreq (ch : Nat) : Statement (.getfreq ch) := by
  intro rest _
  simp [packetLength, headerLength, byteAt, encode]

theorem getvol (ch : Nat) : Statement (.getvol ch) := by
  intro rest _
  simp [packetLength, headerLength, byteAt, encode]

theorem getpatch (ch : Nat) : Statement (.getpatch ch) := by
  intro rest _
  simp [packetLength, headerLength, byteAt, encode]

theorem envattack (ch target speed : Nat) : Statement (.envattack ch target speed) := by
  intro rest _
  simp [packetLength, headerLength, byteAt, encode]

theorem envrelease (ch speed : Nat) : Statement (.envrelease ch speed) := by
  intro rest _
  simp [packetLength, headerLength, byteAt, encode]

theorem envtick (ch : Nat) : Statement (.envtick ch) := by
  intro rest _
  simp [packetLength, headerLength, byteAt, encode]

theorem envreset (ch : Nat) : Statement (.envreset ch) := by
  intro rest _
  simp [packetLength, headerLength, byteAt, encode]

theorem envupd (ch : Nat) : Statement (.envupd ch) := by
  intro rest _
  simp [packetLength, headerLength, byteAt, encode]

theorem vibset (ch block fnum depth speed : Nat) : Statement (.vibset ch block fnum depth speed) := by
  intro rest _
  simp [packetLength, headerLength, byteAt, encode, toBytes16]

theorem vibclr (ch : Nat) : Statement (.vibclr ch) := by
  intro rest _
  simp [packetLength, headerLength, byteAt, encode]

theorem vibtick (ch : Nat) : Statement (.vibtick ch) := by
  intro rest _
  simp [packetLength, headerLength, byteAt, encode]

theorem vibupd (ch : Nat) : Statement (.vibupd ch) := by
  intro rest _
  simp [packetLength, headerLength, byteAt, encode]

theorem pbend (cur tgt spd : Nat) : Statement (.pbend cur tgt spd) := by
  intro rest _
  simp [packetLength, headerLength, byteAt, encode, toBytes16]

theorem dacen : Statement .dacen := by
  intro rest _
  simp [packetLength, headerLength, byteAt, encode]

theorem dacdis : Statement .dacdis := by
  intro rest _
  simp [packetLength, headerLength, byteAt, encode]

theorem playbuf (div : Nat) (samples : List Nat) : Statement (.playbuf div samples) := by
  intro rest h
  simp only [Instr.wf, fits16, Bool.and_eq_true, decide_eq_true_eq] at h
  have hl : samples.length / 256 % 256 * 256 + samples.length % 256 = samples.length := by omega
  simp [packetLength, headerLength, byteAt, halfAt, encode, toBytes16, toByte, bufferLen_of_lt h.1.2, hl]
  omega

theorem settmra (val : Nat) : Statement (.settmra val) := by
  intro rest _
  simp [packetLength, headerLength, byteAt, encode, toBytes16]

theorem settmrb (val : Nat) : Statement (.settmrb val) := by
  intro rest _
  simp [packetLength, headerLength, byteAt, encode]

theorem tmrstart (flags : Nat) : Statement (.tmrstart flags) := by
  intro rest _
  simp [packetLength, headerLength, byteAt, encode]

theorem tmrstop : Statement .tmrstop := by
  intro rest _
  simp [packetLength, headerLength, byteAt, encode]

theorem tmraovf : Statement .tmraovf := by
  intro rest _
  simp [packetLength, headerLength, byteAt, encode]

theorem tmrbovf : Statement .tmrbovf := by
  intro rest _
  simp [packetLength, headerLength, byteAt, encode]

theorem frame : Statement .frame := by
  intro rest _
  simp [packetLength, headerLength, byteAt, encode]

end Sys2Proof.Laws.PacketLength
end

