-- ==== Sys2Proof/Tests/Slice0.lean ====
section
/-! SUPPORT. The model's own tests, expected results from the spec's rules and vectors (spec/95_test_vectors.md,
spec/96_test_vectors_2.md), and for every obligation with a hypothesis a concrete state and operands that meet it. -/

namespace Sys2Proof.Tests

open Sys2Proof.Machine

/-! ### Helpers -/

/-- The reset state in FIXED mode with SETTLE_ITER 5. -/
def fixedState : State := { State.reset with cfg := { defaultConfig with settleMode := .fixed, settleIter := 5 } }

/-- The reset state in POLL mode, BUSY_CAP 4, with the chip's next answers. -/
def pollState (answers : List Byte) : State := { State.reset with oracle := answers }

/-- The next state a command answers, if it does. -/
def after (i : Instr) (s : State) : Option State :=
  match exec i s with
  | .next t => some t
  | .fault _ => none
  | .refused _ => none

/-- The next state a list of commands answers, if it does. -/
def afterAll (is : List Instr) (s : State) : Option State :=
  match execAll is s with
  | .next t => some t
  | .fault _ => none
  | .refused _ => none

/-- The reason a command is refused with, if it is. -/
def refusal (i : Instr) (s : State) : Option Refusal :=
  match exec i s with
  | .next _ => none
  | .fault _ => none
  | .refused r => some r

/-- The reason the next step on a stream is refused with, from reset. -/
def streamRefusal (bs : List Byte) : Option Refusal :=
  match step { fixedState with stream := bs } with
  | .next _ => none
  | .fault _ => none
  | .refused r => some r

/-- What a command answers on the response stream. -/
def answers (i : Instr) (s : State) : Option (List Byte) := (after i s).map (·.out)

/-- The bytes a command writes to the ports. -/
def written (i : Instr) (s : State) : Option (List (Loc × Byte)) := (after i s).map fun t => busWrites t.trace

/-- Port writes as address and data bytes. -/
def portWrites (ws : List (Port × Byte × Byte)) : List (Loc × Byte) :=
  ws.flatMap fun w => [(addrLoc w.1, w.2.1), (dataLoc w.1, w.2.2)]

def completes (i : Instr) (s : State) : Bool := (after i s).isSome

/-- Decoding as an option, so that it can be compared. -/
def decoded (bs : List Byte) : Option Instr :=
  match decode bs with
  | .ok i => some i
  | .error _ => none

def decodeFailure (bs : List Byte) : Option DecodeError :=
  match decode bs with
  | .ok _ => none
  | .error e => some e

/-- `ENV[c]` written as the vectors write it. -/
def envOf5 (current target : BitVec 7) (speed counter : Nat) (active : Bool) : EnvState :=
  { current := current, target := target, speed := speed, counter := counter, active := active }

def withEnv (c : Fin 6) (e : EnvState) (s : State) : State := setEnv c e s

/-- `VIB[c]` written as the vectors write it. -/
def vibOf6 (present : Bool) (block : BitVec 3) (fnum : BitVec 11) (depth speed : BitVec 4) (phase : BitVec 6) :
    VibState :=
  { present := present, baseBlock := block, baseFnum := fnum, depth := depth, speed := speed, phase := phase }

def patchOfByte (n : Nat) : Patch :=
  let o : PatchOp := ⟨n, n, n, n, n, n, n, n, n, n, n⟩
  ⟨n, n, n, o, o, o, o⟩

/-! ### WellFormed: an ill-formed term for each check, refused -/

theorem test_wf_refuses_port_driver :
    (Instr.write 256 0 0).wf = false ∧ (Instr.write 0 256 0).wf = false ∧ (Instr.write 0 0 256).wf = false ∧
      (Instr.regofs 256).wf = false ∧ (Instr.chroute 256).wf = false ∧ (Instr.opmap 256 0).wf = false ∧
      (Instr.opmap 0 256).wf = false := by decide

theorem test_wf_refuses_channel_set :
    (Instr.setalg 256 0 0).wf = false ∧ (Instr.setalg 0 256 0).wf = false ∧ (Instr.setalg 0 0 256).wf = false ∧
      (Instr.setpan 256 0 0 0 0).wf = false ∧ (Instr.setpan 0 256 0 0 0).wf = false ∧
      (Instr.setpan 0 0 256 0 0).wf = false ∧ (Instr.setpan 0 0 0 256 0).wf = false ∧
      (Instr.setpan 0 0 0 0 256).wf = false ∧ (Instr.setfreq 256 0 0).wf = false ∧
      (Instr.setfreq 0 256 0).wf = false ∧ (Instr.setfreq 0 0 65536).wf = false := by decide

theorem test_wf_refuses_channel_other :
    (Instr.keyon 256 0).wf = false ∧ (Instr.keyon 0 256).wf = false ∧ (Instr.keyoff 256 0).wf = false ∧
      (Instr.keyoff 0 256).wf = false ∧ (Instr.settl 256 0 0).wf = false ∧ (Instr.settl 0 256 0).wf = false ∧
      (Instr.settl 0 0 256).wf = false ∧ (Instr.setcarrier 256 0).wf = false ∧ (Instr.setcarrier 0 256).wf = false ∧
      (Instr.getfreq 256).wf = false ∧ (Instr.getvol 256).wf = false ∧ (Instr.getpatch 256).wf = false := by decide

theorem test_wf_refuses_patch :
    (Instr.loadpatch 256 (patchOfByte 0)).wf = false ∧
      (Instr.loadpatch 0 { patchOfByte 0 with algorithm := 256 }).wf = false ∧
      (Instr.loadpatch 0 { patchOfByte 0 with feedback := 256 }).wf = false ∧
      (Instr.loadpatch 0 { patchOfByte 0 with pan := 256 }).wf = false ∧
      (Instr.loadpatch 0 { patchOfByte 0 with op0 := ⟨256, 0, 0, 0, 0, 0, 0, 0, 0, 0, 0⟩ }).wf = false ∧
      (Instr.loadpatch 0 { patchOfByte 0 with op0 := ⟨0, 256, 0, 0, 0, 0, 0, 0, 0, 0, 0⟩ }).wf = false ∧
      (Instr.loadpatch 0 { patchOfByte 0 with op0 := ⟨0, 0, 256, 0, 0, 0, 0, 0, 0, 0, 0⟩ }).wf = false ∧
      (Instr.loadpatch 0 { patchOfByte 0 with op1 := ⟨0, 0, 0, 256, 0, 0, 0, 0, 0, 0, 0⟩ }).wf = false ∧
      (Instr.loadpatch 0 { patchOfByte 0 with op1 := ⟨0, 0, 0, 0, 256, 0, 0, 0, 0, 0, 0⟩ }).wf = false ∧
      (Instr.loadpatch 0 { patchOfByte 0 with op1 := ⟨0, 0, 0, 0, 0, 256, 0, 0, 0, 0, 0⟩ }).wf = false ∧
      (Instr.loadpatch 0 { patchOfByte 0 with op2 := ⟨0, 0, 0, 0, 0, 0, 256, 0, 0, 0, 0⟩ }).wf = false ∧
      (Instr.loadpatch 0 { patchOfByte 0 with op2 := ⟨0, 0, 0, 0, 0, 0, 0, 256, 0, 0, 0⟩ }).wf = false ∧
      (Instr.loadpatch 0 { patchOfByte 0 with op3 := ⟨0, 0, 0, 0, 0, 0, 0, 0, 256, 0, 0⟩ }).wf = false ∧
      (Instr.loadpatch 0 { patchOfByte 0 with op3 := ⟨0, 0, 0, 0, 0, 0, 0, 0, 0, 256, 0⟩ }).wf = false ∧
      (Instr.loadpatch 0 { patchOfByte 0 with op3 := ⟨0, 0, 0, 0, 0, 0, 0, 0, 0, 0, 256⟩ }).wf = false := by decide

theorem test_wf_refuses_engines :
    (Instr.envattack 256 0 1).wf = false ∧ (Instr.envattack 0 256 1).wf = false ∧
      (Instr.envattack 0 0 256).wf = false ∧ (Instr.envrelease 256 1).wf = false ∧
      (Instr.envrelease 0 256).wf = false ∧ (Instr.envtick 256).wf = false ∧ (Instr.envreset 256).wf = false ∧
      (Instr.envupd 256).wf = false ∧ (Instr.vibset 256 0 0 0 1).wf = false ∧ (Instr.vibset 0 256 0 0 1).wf = false ∧
      (Instr.vibset 0 0 65536 0 1).wf = false ∧ (Instr.vibset 0 0 0 256 1).wf = false ∧
      (Instr.vibset 0 0 0 0 256).wf = false ∧ (Instr.vibclr 256).wf = false ∧ (Instr.vibtick 256).wf = false ∧
      (Instr.vibupd 256).wf = false := by decide

set_option maxRecDepth 200000 in
theorem test_wf_refuses_bend_dac_timer :
    (Instr.pbend 65536 0 0).wf = false ∧ (Instr.pbend 0 65536 0).wf = false ∧ (Instr.pbend 0 0 65536).wf = false ∧
      (Instr.playbuf 65536 []).wf = false ∧ (Instr.playbuf 0 [0, 256]).wf = false ∧
      (Instr.settmra 65536).wf = false ∧ (Instr.settmrb 256).wf = false ∧ (Instr.tmrstart 256).wf = false := by decide

theorem test_wf_refuses_long_buffer (xs : List Nat) (h : xs.length = 65536) : (Instr.playbuf 0 xs).wf = false := by
  simp [Instr.wf, fits16, h]

theorem test_legal_refuses :
    (Instr.write 2 0 0).legal 8 = false ∧ (Instr.regofs 4).legal 8 = false ∧ (Instr.chroute 6).legal 8 = false ∧
      (Instr.opmap 6 0).legal 8 = false ∧ (Instr.opmap 0 4).legal 8 = false ∧ (Instr.envattack 0 0 0).legal 8 = false ∧
      (Instr.envattack 0 0 256).legal 8 = false ∧ (Instr.envrelease 0 0).legal 8 = false ∧
      (Instr.vibset 0 0 0 0 0).legal 8 = false ∧ (Instr.vibset 0 0 0 0 9).legal 8 = false := by decide

/-! ### Decoding: one packet of every command, written out from R71 -/

theorem test_decode_port_driver :
    decoded [0x10, 0x01, 0xB0, 0x32] = some (.write 1 0xB0 0x32) ∧ decoded [0x11] = some .busyq := by decide

theorem test_decode_addressing :
    decoded [0x20, 0x02] = some (.regofs 2) ∧ decoded [0x21, 0x04] = some (.chroute 4) ∧
      decoded [0x22, 0x05, 0x02] = some (.opmap 5 2) := by decide

theorem test_decode_channel :
    decoded [0x30, 0x04, 0x03, 0x05] = some (.setalg 4 3 5) ∧
      decoded [0x31, 0x05, 0x01, 0x00, 0x02, 0x06] = some (.setpan 5 1 0 2 6) ∧
      decoded [0x32, 0x04, 0x03, 0x02, 0x84] = some (.setfreq 4 3 0x284) ∧
      decoded [0x33, 0x04, 0x0F] = some (.keyon 4 0xF) ∧ decoded [0x34, 0x05, 0x0A] = some (.keyoff 5 0xA) ∧
      decoded [0x36, 0x04, 0x03, 0x20] = some (.settl 4 3 0x20) ∧
      decoded [0x37, 0x02, 0x01] = some (.setcarrier 2 1) ∧ decoded [0x38, 0x04] = some (.getfreq 4) ∧
      decoded [0x39, 0x01] = some (.getvol 1) ∧ decoded [0x3A, 0x03] = some (.getpatch 3) := by decide

/-- The patch PA of vector V2.5.1. -/
def patchPA : Patch :=
  ⟨0x04, 0x05, 0xED,
    ⟨0x05, 0x02, 0x23, 0x01, 0x1F, 0x01, 0x05, 0x02, 0x01, 0x0F, 0x00⟩,
    ⟨0x00, 0x01, 0x7F, 0x00, 0x00, 0x00, 0x00, 0x00, 0x00, 0x00, 0x00⟩,
    ⟨0x03, 0x0F, 0x00, 0x03, 0x3F, 0x00, 0x25, 0x1F, 0x0F, 0x00, 0x0D⟩,
    ⟨0x07, 0x00, 0x10, 0x02, 0x14, 0x01, 0x1F, 0x07, 0x08, 0x08, 0x08⟩⟩

/-- The packet of vector V2.5.1. -/
def packetPA : List Byte :=
  [0x35, 0x04, 0x04, 0x05, 0xED, 0x05, 0x02, 0x23, 0x01, 0x1F, 0x01, 0x05, 0x02, 0x01, 0x0F, 0x00] ++
  [0x00, 0x01, 0x7F, 0x00, 0x00, 0x00, 0x00, 0x00, 0x00, 0x00, 0x00] ++
  [0x03, 0x0F, 0x00, 0x03, 0x3F, 0x00, 0x25, 0x1F, 0x0F, 0x00, 0x0D] ++
  [0x07, 0x00, 0x10, 0x02, 0x14, 0x01, 0x1F, 0x07, 0x08, 0x08, 0x08]

theorem test_decode_loadpatch : decoded packetPA = some (.loadpatch 4 patchPA) := by decide

theorem test_decode_envelope :
    decoded [0x40, 0x01, 0x7C, 0x03] = some (.envattack 1 0x7C 3) ∧ decoded [0x41, 0x02, 0x05] = some (.envrelease 2 5) ∧
      decoded [0x42, 0x03] = some (.envtick 3) ∧ decoded [0x43, 0x05] = some (.envreset 5) ∧
      decoded [0x44, 0x04] = some (.envupd 4) := by decide

theorem test_decode_vibrato :
    decoded [0x50, 0x04, 0x03, 0x02, 0x84, 0x0A, 0x06] = some (.vibset 4 3 0x284 0xA 6) ∧
      decoded [0x51, 0x04] = some (.vibclr 4) ∧ decoded [0x52, 0x01] = some (.vibtick 1) ∧
      decoded [0x53, 0x03] = some (.vibupd 3) ∧
      decoded [0x54, 0x02, 0x84, 0x03, 0xA0, 0x01, 0x10] = some (.pbend 0x284 0x3A0 0x110) := by decide

theorem test_decode_dac_timer_frame :
    decoded [0x60] = some .dacen ∧ decoded [0x61] = some .dacdis ∧
      decoded [0x62, 0x01, 0x03, 0x00, 0x02, 0x80, 0xFF, 0x7F] = some (.playbuf 0x103 [0x80, 0xFF]) ∧
      decoded [0x70, 0x02, 0xA7] = some (.settmra 0x2A7) ∧ decoded [0x71, 0xC8] = some (.settmrb 0xC8) ∧
      decoded [0x72, 0x05] = some (.tmrstart 5) ∧ decoded [0x73] = some .tmrstop ∧ decoded [0x74] = some .tmraovf ∧
      decoded [0x75] = some .tmrbovf ∧ decoded [0x7F] = some .frame := by decide

/-- V2.12.6 to V2.12.9, V2.12.22, V2.12.23, and the neighbours of the table's groups. -/
theorem test_decode_refuses :
    decodeFailure [0x00] = some .reservedOpcode ∧ decodeFailure [0x12] = some .reservedOpcode ∧
      decodeFailure [0x3B, 0, 0] = some .reservedOpcode ∧ decodeFailure [0x7E] = some .reservedOpcode ∧
      decodeFailure [0xFF] = some .reservedOpcode ∧ decodeFailure [0x32, 0x04, 0x03] = some .truncatedPacket ∧
      decodeFailure [0x62, 0x00, 0x01, 0x00, 0x03, 0x01, 0x02] = some .truncatedPacket ∧
      decodeFailure [0x62, 0x00, 0x01] = some .truncatedPacket ∧ decodeFailure [] = some .truncatedPacket := by decide

theorem test_table_word :
    decodeTableWord 40 0x8402030432 = some (.setfreq 4 3 0x284) ∧ decodeTableWord 8 0x35 = some (.loadpatch 0 (patchOfByte 0)) ∧
      decodeTableWord 8 0x62 = some (.playbuf 0 []) ∧ decodeTableWord 8 0x12 = none := by decide

/-! ### Port Driver (V2.1.1, V2.1.5, V2.1.10) -/

theorem test_write_fixed :
    (after (.write 1 0xB0 0x32) fixedState).map (·.trace) =
      some [.w .p1a 0xB0, .settle 5, .w .p1d 0x32, .settle 5] := by decide

theorem test_write_poll_cap :
    (after (.write 0 0x28 0xF0) (pollState [0x80, 0x80, 0x80, 0x80, 0x00])).map (fun t => (t.trace, t.capx)) =
      some ([.w .p0a 0x28, .sr 0x80, .sr 0x80, .sr 0x80, .sr 0x80, .capx, .w .p0d 0xF0, .sr 0x00], 1) := by decide

/-- V2.1.6: a fourth read that shows ready does not exceed the cap. -/
theorem test_settle_last_read_ready :
    (settle (pollState [0x80, 0x80, 0x80, 0x00, 0x7F])).capx = 0 ∧
      (settle (pollState [0x80, 0x80, 0x80, 0x00, 0x7F])).oracle = [0x7F] := by decide

theorem test_busyq :
    answers .busyq (pollState [0x80]) = some [1] ∧ answers .busyq (pollState [0x7F]) = some [0] := by decide

/-! ### Operator Addressing (S1, S2, section 2.2) -/

theorem test_regofs : answers (.regofs 1) State.reset = some [8] ∧ answers (.regofs 2) State.reset = some [4] := by
  decide

theorem test_chroute :
    answers (.chroute 2) State.reset = some [0, 2] ∧ answers (.chroute 3) State.reset = some [1, 0] := by decide

theorem test_opmap : answers (.opmap 5 2) State.reset = some [1, 2, 4] := by decide

/-! ### Channel Control (sections 2.3 to 2.5) -/

theorem test_setalg : written (.setalg 4 4 5) fixedState = some (portWrites [(.p1, 0xB1, 0x2C)]) := by decide

theorem test_setalg_masks :
    (after (.setalg 0 8 0xF) fixedState).map (fun t => (t.chan 0).algorithm.toNat * 10 + (t.chan 0).feedback.toNat) =
      some 7 := by decide

theorem test_setpan : written (.setpan 5 1 0 2 5) fixedState = some (portWrites [(.p1, 0xB6, 0xA5)]) := by decide

theorem test_setpan_masks : written (.setpan 3 2 3 7 8) fixedState = some (portWrites [(.p1, 0xB4, 0x70)]) := by decide

theorem test_setfreq :
    written (.setfreq 4 3 0x284) fixedState = some (portWrites [(.p1, 0xA5, 0x1A), (.p1, 0xA1, 0x84)]) := by decide

theorem test_setfreq_masks :
    (after (.setfreq 1 0xFF 0xFFFF) fixedState).map (fun t => ((t.chan 1).block, (t.chan 1).fnum)) = some (7, 0x7FF) := by
  decide

theorem test_keyon :
    written (.keyon 4 0xF) fixedState = some (portWrites [(.p0, 0x28, 0xF5)]) ∧
      written (.keyon 3 0x11) fixedState = some (portWrites [(.p0, 0x28, 0x14)]) := by decide

theorem test_keyoff : written (.keyoff 5 0xA) fixedState = some (portWrites [(.p0, 0x28, 0x06)]) := by decide

set_option maxRecDepth 20000 in
/-- V2.5.1: the 30 writes, in order. -/
theorem test_loadpatch_writes :
    written (.loadpatch 4 patchPA) fixedState = some (portWrites (
      [(.p1, 0xB1, 0x2C), (.p1, 0xB5, 0xE5), (.p1, 0x31, 0x52), (.p1, 0x41, 0x23), (.p1, 0x51, 0x5F),
        (.p1, 0x61, 0x85), (.p1, 0x71, 0x02), (.p1, 0x81, 0x1F), (.p1, 0x91, 0x00), (.p1, 0x39, 0x01)] ++
      [(.p1, 0x49, 0x7F), (.p1, 0x59, 0x00), (.p1, 0x69, 0x00), (.p1, 0x79, 0x00), (.p1, 0x89, 0x00),
        (.p1, 0x99, 0x00), (.p1, 0x35, 0x3F), (.p1, 0x45, 0x00), (.p1, 0x55, 0xDF), (.p1, 0x65, 0x05)] ++
      [(.p1, 0x75, 0x1F), (.p1, 0x85, 0xF0), (.p1, 0x95, 0x0D), (.p1, 0x3D, 0x70), (.p1, 0x4D, 0x10),
        (.p1, 0x5D, 0x94), (.p1, 0x6D, 0x9F), (.p1, 0x7D, 0x07), (.p1, 0x8D, 0x88), (.p1, 0x9D, 0x08)])) := by decide

set_option maxRecDepth 20000 in
/-- V2.5.1: the record a following GETPATCH answers. -/
theorem test_loadpatch_shadow :
    ((after (.loadpatch 4 patchPA) fixedState).bind (answers (.getpatch 4))) = some (
      [0x04, 0x05, 0xE5, 0x05, 0x02, 0x23, 0x01, 0x1F, 0x01, 0x05, 0x02, 0x01, 0x0F, 0x00] ++
      [0x00, 0x01, 0x7F, 0x00, 0x00, 0x00, 0x00, 0x00, 0x00, 0x00, 0x00] ++
      [0x03, 0x0F, 0x00, 0x03, 0x1F, 0x00, 0x05, 0x1F, 0x0F, 0x00, 0x0D] ++
      [0x07, 0x00, 0x10, 0x02, 0x14, 0x01, 0x1F, 0x07, 0x08, 0x08, 0x08]) := by decide

theorem test_settl :
    written (.settl 4 3 0x20) fixedState = some (portWrites [(.p1, 0x4D, 0x20)]) ∧
      written (.settl 0 2 0x80) fixedState = some (portWrites [(.p0, 0x44, 0x00)]) := by decide

theorem test_settl_shadow :
    (after (.settl 5 0 0xFF) (setChan 5 { ChState.reset with op := #v[⟨0, 0, 1, 0, 0, false, 0, 0, 0, 0, 0⟩,
      OpState.reset, OpState.reset, OpState.reset] } fixedState)).map (fun t => ((t.chan 5).oper 0).totalLevel) =
      some 127 := by decide

theorem test_setcarrier :
    (after (.setcarrier 2 1) fixedState).map (fun t => ((t.chan 2).carrier, t.trace)) = some (1, []) := by decide

theorem test_getfreq :
    answers (.getfreq 4) (setChan 4 { ChState.reset with block := 3, fnum := 0x284 } fixedState) =
      some [0x03, 0x02, 0x84] := by decide

theorem test_getvol : answers (.getvol 0) State.reset = some [0x7F] := by decide

theorem test_getpatch_reset :
    answers (.getpatch 3) State.reset = some ([0, 0, 0] ++ [0, 0, 0x7F, 0, 0, 0, 0, 0, 0, 0, 0] ++
      [0, 0, 0x7F, 0, 0, 0, 0, 0, 0, 0, 0] ++ [0, 0, 0x7F, 0, 0, 0, 0, 0, 0, 0, 0] ++
      [0, 0, 0x7F, 0, 0, 0, 0, 0, 0, 0, 0]) := by decide

/-! ### Envelope (section 2.6) -/

theorem test_envattack_masks :
    (after (.envattack 0 0x80 1) fixedState).map (·.envOf 0) = some (envOf5 127 0 1 0 true) := by decide

/-- V2.6.4 step 13. -/
theorem test_envrelease_keeps_counter :
    (after (.envrelease 0 2) (withEnv 0 (envOf5 120 0 5 3 true) fixedState)).map (·.envOf 0) =
      some (envOf5 120 127 2 3 true) := by decide

/-- V2.6.4 step 14, V2.6.2 step 3. -/
theorem test_envtick_steps :
    (after (.envtick 0) (withEnv 0 (envOf5 120 127 2 3 true) fixedState)).map (fun t => (t.envOf 0, t.out)) =
        some (envOf5 121 127 2 0 true, [1]) ∧
      (after (.envtick 2) (withEnv 2 (envOf5 127 127 2 1 true) fixedState)).map (fun t => (t.envOf 2, t.out)) =
        some (envOf5 127 127 2 0 false, [0]) := by decide

/-- V2.6.1 step 2, S5. -/
theorem test_envtick_counts :
    (after (.envtick 1) (withEnv 1 (envOf5 127 124 3 0 true) fixedState)).map (fun t => (t.envOf 1, t.out)) =
        some (envOf5 127 124 3 1 true, [0]) ∧
      (after (.envtick 0) fixedState).map (fun t => (t.envOf 0, t.out)) = some (envOf5 127 127 1 0 false, [0]) := by
  decide

theorem test_envreset :
    (after (.envreset 5) (withEnv 5 (envOf5 126 0 2 1 true) fixedState)).map (·.envOf 5) =
      some (envOf5 127 127 1 0 false) := by decide

/-- V2.6.9. -/
theorem test_envupd_writes :
    (after (.envupd 4) (withEnv 4 (envOf5 127 0 1 0 true) fixedState)).map
        (fun t => (busWrites t.trace, t.out, ((t.chan 4).oper 3).totalLevel)) =
      some (portWrites [(.p1, 0x4D, 0x7E)], [1], 126) := by decide

/-- V2.6.10, first ENVUPD. -/
theorem test_envupd_counts :
    (after (.envupd 4) (withEnv 4 (envOf5 127 0 2 0 true) fixedState)).map (fun t => (t.trace, t.out)) =
      some ([], [0]) := by decide

/-! ### Vibrato and pitch bend (sections 2.7, 2.8) -/

theorem test_vibset_masks :
    (after (.vibset 2 0xFF 0xFFFF 0xFF 8) fixedState).map (·.vibOf 2) = some (vibOf6 true 7 0x7FF 15 8 0) := by decide

theorem test_vibclr :
    (after (.vibclr 4) (setVib 4 (vibOf6 true 3 0x284 8 4 8) fixedState)).map (·.vibOf 4) =
      some (vibOf6 false 0 0 0 1 0) := by decide

/-- V2.7.1 ticks 1 and 12 (offsets 2 and −8). -/
theorem test_vibtick :
    (after (.vibtick 4) (setVib 4 (vibOf6 true 3 0x284 8 4 0) fixedState)).map (fun t => ((t.vibOf 4).phase, t.out)) =
        some (4, [0x03, 0x02, 0x86]) ∧
      answers (.vibtick 4) (setVib 4 (vibOf6 true 3 0x284 8 4 44) fixedState) = some [0x03, 0x02, 0x7C] := by decide

/-- V2.7.2 tick 2, V2.7.3 tick 6: saturation at both ends. -/
theorem test_vibtick_saturates :
    answers (.vibtick 0) (setVib 0 (vibOf6 true 7 0x7F8 15 8 8) fixedState) = some [0x07, 0x07, 0xFF] ∧
      answers (.vibtick 0) (setVib 0 (vibOf6 true 0 5 15 8 40) fixedState) = some [0x00, 0x00, 0x00] := by decide

/-- V2.7.7. -/
theorem test_vibupd :
    (after (.vibupd 4) (setVib 4 (vibOf6 true 3 0x284 8 4 0) fixedState)).map
        (fun t => (busWrites t.trace, t.out, (t.chan 4).block, (t.chan 4).fnum)) =
      some (portWrites [(.p1, 0xA5, 0x1A), (.p1, 0xA1, 0x86)], [0x03, 0x02, 0x86], 3, 0x286) := by decide

/-- V2.8.3, V2.8.13. -/
theorem test_pbend_moves :
    answers (.pbend 0x64 0x82 8) State.reset = some [0x00, 0x6C, 0x00] ∧
      answers (.pbend 0xFFFF 0 1) State.reset = some [0xFF, 0xFE, 0x00] := by decide

/-- V2.8.8, V2.8.11, V2.8.2. -/
theorem test_pbend_reaches :
    answers (.pbend 0x6A 0x64 8) State.reset = some [0x00, 0x64, 0x01] ∧
      answers (.pbend 0x64 0x82 0x1F) State.reset = some [0x00, 0x82, 0x01] ∧
      answers (.pbend 0x64 0x64 0) State.reset = some [0x00, 0x64, 0x01] := by decide

/-- PB_WIDTH and ENV_SPEED_WIDTH are parameters: at 8 bits a bend to 0x182 is one to 0x82; at 4 bits 16 is no speed. -/
def narrow : State := { fixedState with cfg := { fixedState.cfg with pbWidth := 8, envSpeedWidth := 4 } }

theorem test_widths_are_parameters :
    answers (.pbend 0x64 0x182 0x1F) narrow = some [0x00, 0x82, 0x01] ∧
      completes (.envattack 0 0 15) narrow = true ∧
      refusal (.envattack 0 0 16) narrow = some (.badEnvSpeed 0) := by decide

/-- R204's worked values: TRI_OFFSET(4, 8) = 2, (36, 8) = -2, (16, 15) = 15, (48, 15) = -15, (1, 15) = 0. -/
theorem test_triangle :
    vibOffsetTri 4 8 = 2 ∧ vibOffsetTri 36 8 = -2 ∧ vibOffsetTri 16 15 = 15 ∧ vibOffsetTri 48 15 = -15 ∧
      vibOffsetTri 1 15 = 0 := by decide

/-! ### DAC, timers, FRAME (sections 2.9 to 2.11) -/

theorem test_dacen : written .dacen fixedState = some (portWrites [(.p0, 0x2B, 0x80)]) := by decide

theorem test_dacdis : written .dacdis fixedState = some (portWrites [(.p0, 0x2B, 0x00)]) := by decide

/-- V2.9.3. -/
theorem test_playbuf :
    (after (.playbuf 3 [0x80, 0xFF]) fixedState).map (fun t => (t.trace, t.cp)) =
      some ([.w .p0a 0x2A, .settle 5, .w .p0d 0x80, .settle 5, .swait 3, .w .p0a 0x2A, .settle 5, .w .p0d 0xFF,
        .settle 5, .swait 3], 7) := by decide

/-- V2.9.4, S9. -/
theorem test_playbuf_empty : (after (.playbuf 3 []) fixedState).map (fun t => (t.trace, t.cp)) = some ([], 5) := by
  decide

/-- R73: 65536 samples have `len` 0, so PLAYBUF writes nothing; 65537 have `len` 1. -/
theorem test_playbuf_len_masked (xs ys : List Nat) (h : xs.length = 65536) (k : ys.length = 65537) :
    exec (.playbuf 3 xs) fixedState = .next { fixedState with cp := 5 } ∧ bufferLen ys = 1 := by
  have e : bufferLen xs = 0 := by simp [bufferLen, h]
  exact ⟨by simp [exec, execPlaybuf, e, playSamples, finish, advance, fixedState, State.reset, State.resetWith],
    by simp [bufferLen, k]⟩

/-- V2.10.1, V2.10.7. -/
theorem test_settmra :
    written (.settmra 0x2A7) fixedState = some (portWrites [(.p0, 0x24, 0xA9), (.p0, 0x25, 0x03)]) ∧
      written (.settmra 0xFFFF) fixedState = some (portWrites [(.p0, 0x24, 0xFF), (.p0, 0x25, 0x03)]) := by decide

theorem test_settmrb : written (.settmrb 0xC8) fixedState = some (portWrites [(.p0, 0x26, 0xC8)]) := by decide

theorem test_tmrstart : written (.tmrstart 0xFF) fixedState = some (portWrites [(.p0, 0x27, 0xFF)]) := by decide

theorem test_tmrstop : written .tmrstop fixedState = some (portWrites [(.p0, 0x27, 0x00)]) := by decide

/-- Section 2.10's table at status byte 0x02. -/
theorem test_overflow_queries :
    answers .tmraovf (pollState [0x02]) = some [0] ∧ answers .tmrbovf (pollState [0x02]) = some [1] := by decide

/-- V2.11.2. -/
theorem test_frame :
    (after .frame (withEnv 4 (envOf5 127 0 1 0 true) (setVib 4 (vibOf6 true 3 0x284 8 4 0) fixedState))).map
        (fun t => (busWrites t.trace, t.out, t.envOf 4, t.vibOf 4, (t.chan 4).fnum)) =
      some (portWrites [(.p1, 0x4D, 0x7E), (.p1, 0xA5, 0x1A), (.p1, 0xA1, 0x86)], [], envOf5 126 0 1 0 true,
        vibOf6 true 3 0x284 8 4 4, 0x286) := by decide

/-- V2.11.1. -/
theorem test_frame_idle : (after .frame fixedState).map (fun t => (t.trace, t.cp)) = some ([], 1) := by decide

/-! ### Refusals (section 2.12) -/

theorem test_refusals_of_operands :
    streamRefusal [0x30, 0x06, 0x00, 0x00] = some (.badChannel 0) ∧
      streamRefusal [0x36, 0x00, 0x04, 0x00] = some (.badOperator 0) ∧
      streamRefusal [0x36, 0x06, 0x04, 0x00] = some (.badChannel 0) ∧
      streamRefusal [0x10, 0x02, 0x00, 0x00] = some (.badPort 0) ∧
      streamRefusal [0x40, 0x00, 0x00, 0x00] = some (.badEnvSpeed 0) ∧
      streamRefusal [0x40, 0x06, 0x00, 0x00] = some (.badChannel 0) ∧
      streamRefusal [0x50, 0x00, 0x00, 0x00, 0x00, 0x00, 0x09] = some (.badVibSpeed 0) ∧
      streamRefusal [0x52, 0x00] = some (.vibAbsent 0) ∧ streamRefusal [0x53, 0x03] = some (.vibAbsent 0) ∧
      streamRefusal [0x52, 0x06] = some (.badChannel 0) := by decide

theorem test_refusals_of_decoding :
    streamRefusal [0x12] = some (.reservedOpcode 0) ∧ streamRefusal [0x32, 0x04, 0x03] = some (.truncatedPacket 0) ∧
      streamRefusal [0x62, 0x00, 0x01, 0x00, 0x03, 0x01, 0x02] = some (.truncatedPacket 0) := by decide

/-! ### Witnesses: each obligation's hypotheses are met -/

/-- A state of POLL mode whose chip answers busy, busy, ready. -/
def readyLate : State := pollState [0x80, 0x80, 0x00]

/-- A state with a vibrato on channel 5, at the largest legal speed, and a running envelope on channel 0. -/
def playing : State := setVib 5 (vibOf6 true 3 0x284 8 8 60) (withEnv 0 (envOf5 100 0 1 0 true) fixedState)

theorem witness_WriteMakesOnePortWrite :
    completes (.write 0 0 0) fixedState = true ∧ completes (.write 1 0 0) fixedState = true ∧ 1 < 2 ∧
      refusal (.write 2 0 0) fixedState = some (.badPort 0) := by decide

theorem witness_SettleWaitsByEitherStrategy_fixed : fixedState.cfg.settleMode = .fixed := by decide

/-- All BUSY_CAP reads busy; and a ready answer at the last read BUSY_CAP allows. -/
theorem witness_SettleWaitsByEitherStrategy_poll :
    (State.reset.cfg.settleMode = .poll ∧ 1 ≤ State.reset.cfg.busyCap) ∧
      (∀ k, k < 4 → (answer (pollState [0x80, 0x80, 0x80, 0x80]) k).getLsbD 7 = true) ∧
      (answer (pollState [0x80, 0x80, 0x80, 0x00]) 3).getLsbD 7 = false := by decide

theorem witness_RegofsAndChrouteAnswerTheMapping :
    refusal (.regofs 4) fixedState = some (.badOperator 0) ∧ completes (.chroute 5) fixedState = true ∧
      refusal (.chroute 6) fixedState = some (.badChannel 0) := by decide

theorem witness_OpmapAnswersBothMappings :
    completes (.opmap 5 3) fixedState = true ∧ refusal (.opmap 6 4) fixedState = some (.badChannel 0) ∧
      refusal (.opmap 5 4) fixedState = some (.badOperator 0) := by decide

/-- The channel clause of every command that has one, at 6; its other side at 5. -/
theorem witness_illegal_channel :
    (∀ i ∈ [Instr.setalg 6 0 0, .setpan 6 0 0 0 0, .setfreq 6 0 0, .keyon 6 0, .keyoff 6 0,
        .loadpatch 6 (patchOfByte 0), .settl 6 4 0, .setcarrier 6 4, .getfreq 6, .getvol 6, .getpatch 6,
        .envattack 6 0 0, .envrelease 6 0, .envtick 6, .envreset 6, .envupd 6, .vibset 6 0 0 0 0, .vibclr 6,
        .vibtick 6, .vibupd 6], refusal i playing = some (.badChannel 0)) ∧
      (∀ i ∈ [Instr.setalg 5 0 0, .setpan 5 0 0 0 0, .setfreq 5 0 0, .keyon 5 0, .keyoff 5 0,
        .loadpatch 5 (patchOfByte 0), .settl 5 3 0, .setcarrier 5 3, .getfreq 5, .getvol 5, .getpatch 5,
        .envattack 5 0 1, .envrelease 5 1, .envtick 5, .envreset 5, .envupd 5, .vibset 5 0 0 0 1, .vibclr 5,
        .vibtick 5, .vibupd 5], completes i playing = true) := by decide

theorem witness_illegal_operator :
    refusal (.settl 5 4 0) playing = some (.badOperator 0) ∧
      refusal (.setcarrier 5 4) playing = some (.badOperator 0) := by decide

theorem witness_EnvattackSetsTheRamp :
    completes (.envattack 0 0 1) playing = true ∧ completes (.envattack 0 0 255) playing = true ∧
      refusal (.envattack 0 0 0) playing = some (.badEnvSpeed 0) ∧
      refusal (.envattack 0 0 256) playing = some (.badEnvSpeed 0) := by decide

theorem witness_EnvreleaseKeepsTheCounter :
    completes (.envrelease 0 1) playing = true ∧ completes (.envrelease 0 255) playing = true ∧
      refusal (.envrelease 0 0) playing = some (.badEnvSpeed 0) ∧
      refusal (.envrelease 0 256) playing = some (.badEnvSpeed 0) := by decide

/-- Distance 0 at speed 2: no tick answers 1, and the second ends the ramp. -/
theorem witness_EnvelopeRampTakesDistanceTimesSpeedTicks_at_no_distance :
    (afterAll (.envattack 0 127 2 :: List.replicate 2 (.envtick 0)) fixedState).map
        (fun t => (t.out, (t.envOf 0).active, (t.envOf 0).current)) = some ([0, 0], false, 127) ∧
      (afterAll (.envattack 0 127 2 :: List.replicate 1 (.envtick 0)) fixedState).map
        (fun t => (t.envOf 0).active) = some true := by decide

/-- Distance 1 at speed 2: tick 1 answers 0, tick 2 answers 1 and ends the ramp. -/
theorem witness_EnvelopeRampTakesDistanceTimesSpeedTicks :
    (1 ≤ 2 ∧ 2 < 2 ^ fixedState.cfg.envSpeedWidth) ∧
      (afterAll (.envattack 0 126 2 :: List.replicate 2 (.envtick 0)) fixedState).map
        (fun t => (t.out, (t.envOf 0).active)) = some ([0, 1], false) := by decide

theorem witness_VibsetAndVibclrReplaceTheVibrato :
    completes (.vibset 0 0 0 0 1) fixedState = true ∧ completes (.vibset 0 0 0 0 8) fixedState = true ∧
      refusal (.vibset 0 0 0 0 0) fixedState = some (.badVibSpeed 0) ∧
      refusal (.vibset 0 0 0 0 9) fixedState = some (.badVibSpeed 0) := by decide

/-- The state of VIBTICK's, VIBUPD's, the phase law's and the triangle's hypotheses, and one of the absent clause. -/
theorem witness_vibrato_present_and_absent :
    (playing.vibOf 5).present = true ∧ 1 ≤ (playing.vibOf 5).speed.toNat ∧ (playing.vibOf 5).speed.toNat ≤ 8 ∧
      playing.cfg.vibOffset = .tri ∧ completes (.vibtick 5) playing = true ∧ completes (.vibupd 5) playing = true ∧
      (playing.vibOf 0).present = false ∧ refusal (.vibtick 0) playing = some (.vibAbsent 0) ∧
      refusal (.vibupd 0) playing = some (.vibAbsent 0) := by decide

/-- Distance 30 at speed 8: four calls; the third still moves by 8 and answers 0, the fourth answers 1; and distance 0, whose
first call answers 1. -/
theorem witness_PitchBendReachesTheTargetInTime :
    (fixedState.cfg.pbWidth ≤ 16 ∧ 100 < 2 ^ fixedState.cfg.pbWidth ∧ 130 < 2 ^ fixedState.cfg.pbWidth ∧ 1 ≤ 8 ∧
      8 < 2 ^ fixedState.cfg.pbWidth) ∧
      answers (.pbend 116 130 8) fixedState = some [0, 124, 0] ∧
      answers (.pbend 124 130 8) fixedState = some [0, 130, 1] ∧
      answers (.pbend 100 100 8) fixedState = some [0, 100, 1] := by decide

/-- An inactive envelope at its target on every channel; an active one at its target, below and at its speed. -/
theorem witness_InactiveEnvelopeIsAtItsTarget :
    (∀ c, (fixedState.envOf c).active = false → (fixedState.envOf c).current = (fixedState.envOf c).target) ∧
      completes (.envattack 0 127 2) fixedState = true ∧ (fixedState.envOf 0).current = 127 ∧
      1 ≤ 2 ∧ 2 < 2 ^ fixedState.cfg.envSpeedWidth ∧
      (after (.envtick 0) (withEnv 0 (envOf5 9 9 2 0 true) fixedState)).map (fun t => (t.envOf 0).active) =
        some true ∧
      (after (.envtick 0) (withEnv 0 (envOf5 9 9 2 1 true) fixedState)).map (fun t => (t.envOf 0).active) =
        some false := by decide

/-- The triangle's four pieces at their ends: phases 0, 16, 32, 48 and the last, 63, at depth 15 and base 100. -/
theorem witness_TriangleVibratoStaysWithinDepth :
    fixedState.cfg.vibOffset = .tri ∧
      (([56, 8, 24, 40, 55] : List (BitVec 6)).map fun p =>
        (after (.vibupd 0) (setVib 0 (vibOf6 true 3 100 15 8 p) fixedState)).map fun t => (t.chan 0).fnum.toNat) =
        [some 100, some 115, some 100, some 85, some 100] := by decide

theorem witness_IdleFrameChangesNothing :
    (∀ c, (fixedState.envOf c).active = false) ∧ (∀ c, (fixedState.vibOf c).present = false) := by decide

/-- Each reason of a refused command, from a state that has every legal side too (`playing`). -/
theorem witness_RefusalsNameTheFirstIllegalOperand :
    refusal (.write 2 0 0) playing = some (.badPort 0) ∧ refusal (.getvol 6) playing = some (.badChannel 0) ∧
      refusal (.regofs 4) playing = some (.badOperator 0) ∧ refusal (.opmap 0 4) playing = some (.badOperator 0) ∧
      refusal (.settl 0 4 0) playing = some (.badOperator 0) ∧
      refusal (.setcarrier 0 4) playing = some (.badOperator 0) ∧
      refusal (.envattack 0 0 256) playing = some (.badEnvSpeed 0) ∧
      refusal (.envrelease 0 0) playing = some (.badEnvSpeed 0) ∧
      refusal (.vibset 0 0 0 0 9) playing = some (.badVibSpeed 0) ∧
      refusal (.vibtick 0) playing = some (.vibAbsent 0) ∧ refusal (.vibupd 0) playing = some (.vibAbsent 0) := by decide

/-- A command with a next state, for every statement whose hypothesis is one (CommandPointerAdvancesByThePacketLength,
ResponsesAreOnlyAppended, HistoryIsExtendedByWholePortWrites, InputsAreNeverWritten). -/
theorem witness_a_command_completes :
    (after (.envupd 0) playing).map (fun t => (t.cp, t.out, busWrites t.trace)) =
      some (2, [1], portWrites [(.p0, 0x4C, 0x63)]) := by decide

/-- Each clause's field changes by one of its writers. -/
theorem witness_ShadowFieldsChangeOnlyByTheirWriters :
    (after (.setcarrier 5 1) playing).map (fun t => (t.chan 5).carrier == (playing.chan 5).carrier) = some false ∧
      (after (.setalg 5 1 1) playing).map (fun t => (t.chan 5).algorithm == (playing.chan 5).algorithm) = some false ∧
      (after (.setpan 5 1 0 0 0) playing).map (fun t => (t.chan 5).left == (playing.chan 5).left) = some false ∧
      (after .frame playing).map (fun t => (t.chan 5).fnum == (playing.chan 5).fnum) = some false ∧
      (after .frame playing).map (fun t => decide ((t.chan 0).op = (playing.chan 0).op)) = some false := by decide

theorem witness_EnvelopeFieldsChangeOnlyByTheirWriters :
    (after (.envtick 0) playing).map (fun t => (t.envOf 0).current == (playing.envOf 0).current) = some false ∧
      (after (.envrelease 0 9) playing).map (fun t => (t.envOf 0).target == (playing.envOf 0).target) = some false ∧
      (after (.envtick 1) (withEnv 1 (envOf5 9 0 5 0 true) playing)).map (fun t => (t.envOf 1).counter) = some 1 ∧
      (after (.envreset 0) playing).map (fun t => (t.envOf 0).active) = some false := by decide

theorem witness_VibratoFieldsChangeOnlyByTheirWriters :
    (after (.vibclr 5) playing).map (fun t => (t.vibOf 5).present) = some false ∧
      (after .frame playing).map (fun t => (t.vibOf 5).phase) = some 4 := by decide

theorem witness_BusFreeCommandsMakeNoAccess :
    busFree (.envtick 0) = true ∧ completes (.envtick 0) playing = true := by decide

theorem witness_FixedModeReadsStatusOnlyForQueries :
    playing.cfg.settleMode = .fixed ∧ statusQueryCommand .dacen = false ∧ completes .dacen playing = true := by decide

/-- FIXED against POLL with a chip that never gets ready. -/
theorem witness_StatusAnswersNeverChangeTheBytesWritten :
    AlikeButForStatus fixedState (pollState [0x80, 0x80, 0x80, 0x80, 0x80, 0x80, 0x80, 0x80]) ∧
      completes .dacen fixedState = true ∧ statusQueryCommand .dacen = false :=
  ⟨⟨rfl, rfl, rfl, rfl, rfl, rfl⟩, by decide, by decide⟩

theorem witness_DecodeEncodeIsIdentity :
    (Instr.playbuf 65535 [0, 255]).wf = true ∧ (Instr.loadpatch 255 (patchOfByte 255)).wf = true ∧
      decoded (encode (.loadpatch 255 (patchOfByte 255)) ++ [0x7F]) = some (.loadpatch 255 (patchOfByte 255)) := by decide

theorem witness_DecodedBytesAreTheCommandsPacket :
    decoded [0x44, 0xFF, 0x12] = some (.envupd 255) ∧ encode (.envupd 255) = [0x44, 0xFF] := by decide

/-- One byte short of WRITE's four, of PLAYBUF's five-byte header, and of its one sample. -/
theorem witness_DecoderRefusesReservedAndTruncated :
    (0x10, 4) ∈ opcodeLengths ∧ (0x10 : Byte) ≠ 0x62 ∧ decodeFailure [0x10, 0, 0] = some .truncatedPacket ∧
      decodeFailure [0x10, 0, 0, 0] = none ∧ decodeFailure [0x62, 0, 0, 0] = some .truncatedPacket ∧
      decodeFailure [0x62, 0, 0, 0, 1] = some .truncatedPacket ∧ decodeFailure [0x62, 0, 0, 0, 0] = none := by decide

/-- A stream with one command's packet and a reserved byte behind it, at its start; and at its end. -/
def oneCommand : State := { fixedState with stream := [0x60, 0x12] }

theorem witness_StepRunsTheDecodedCommand :
    Instr.dacen.wf = true ∧ oneCommand.stream.drop oneCommand.cp = encode .dacen ++ [0x12] := by decide

theorem witness_StepEndsOrRefusesWhatIsNoPacket :
    fixedState.cp = fixedState.stream.length ∧ streamRefusal [0x12] = some (.reservedOpcode 0) ∧
      streamRefusal [0x10, 0, 0] = some (.truncatedPacket 0) := by decide

/-- A run that ends in a refusal, and one that comes to the end of its stream. -/
theorem witness_PacketRunIsTheCommandRun :
    let cmds := [Instr.dacen, .keyon 6 0]
    let whole := [Instr.dacen, .keyon 5 0]
    let s : State := { fixedState with stream := encodeAll cmds }
    let w : State := { fixedState with stream := encodeAll whole }
    ((∀ i ∈ cmds, i.wf = true) ∧ s.cp ≤ s.stream.length ∧ s.stream.drop s.cp = encodeAll cmds) ∧
      ((∀ i ∈ whole, i.wf = true) ∧ w.cp ≤ w.stream.length ∧ w.stream.drop w.cp = encodeAll whole ∧
        (afterAll whole w).map runOver = some true) := by decide

theorem witness_EveryStepKeepsTheInvariant : oneCommand.Inv ∧ ∃ t, step oneCommand = .next t :=
  ⟨⟨by decide, by decide,
    fun c => by fin_cases c <;> exact ⟨by decide, by decide, by decide, fun _ => ⟨rfl, .inl rfl⟩⟩,
    fun c => by fin_cases c <;> exact ⟨by decide, by decide, fun _ => .inl rfl⟩, by decide, rfl⟩, _, rfl⟩

/-- Parameters within their bounds other than the defaults: a running RESET_ENV of 4 bits. -/
theorem witness_ResetMeetsTheInvariant :
    ({ defaultConfig with envSpeedWidth := 4, resetEnv := envOf5 9 3 15 14 true } : Config).wf = true ∧
      defaultConfig.wf = true := by decide

end Sys2Proof.Tests
end

section
/-! PROOFS. Packets against commands: the decoder reads a well-formed command back from its packet
(spec/30_encoding.md R70 to R76), a command that runs to its end moves `cp` by its packet's length and leaves the
stream alone (R21, R39), and so a run over packets is the run of their commands (R6, R74, R309). -/

namespace Sys2Proof

/-! ### Reading operands out of bytes -/

@[simp] theorem byteAt_cons_zero (b : Byte) (bs : List Byte) : byteAt (b :: bs) 0 = b.toNat := rfl
@[simp] theorem byteAt_cons_succ (b : Byte) (bs : List Byte) (k : Nat) : byteAt (b :: bs) (k + 1) = byteAt bs k := rfl
@[simp] theorem halfAt_cons_succ (b : Byte) (bs : List Byte) (k : Nat) : halfAt (b :: bs) (k + 1) = halfAt bs k := rfl
@[simp] theorem patchOpAt_cons_succ (b : Byte) (bs : List Byte) (k : Nat) :
    patchOpAt (b :: bs) (k + 1) = patchOpAt bs k := rfl
@[simp] theorem patchAt_cons_succ (b : Byte) (bs : List Byte) (k : Nat) :
    patchAt (b :: bs) (k + 1) = patchAt bs k := rfl

/-- An operator's part of a patch record is eleven bytes (R76). -/
@[simp] theorem patchOpAt_encodePatchOp_append_add (p : PatchOp) (bs : List Byte) (k : Nat) :
    patchOpAt (encodePatchOp p ++ bs) (k + 11) = patchOpAt bs k := rfl

/-- A 16-bit operand is read back from its two bytes (R72). -/
theorem halfAt_toByte_div_cons {n : Nat} (h : fits16 n = true) (bs : List Byte) :
    halfAt (toByte (n / 256) :: toByte n :: bs) 0 = n := by
  simp only [fits16, decide_eq_true_eq] at h
  simp only [halfAt, byteAt_cons_zero, byteAt_cons_succ, toByte, BitVec.toNat_ofNat]
  omega

theorem patchOpAt_encodePatchOp {p : PatchOp} (h : p.wf = true) (bs : List Byte) :
    patchOpAt (encodePatchOp p ++ bs) 0 = p := by
  simp only [PatchOp.wf, Bool.and_eq_true] at h
  simp [patchOpAt, encodePatchOp, toByte_toNat, h]

theorem patchAt_encodePatch {p : Patch} (h : p.wf = true) (bs : List Byte) :
    patchAt (encodePatch p ++ bs) 0 = p := by
  simp only [Patch.wf, Bool.and_eq_true] at h
  simp [patchAt, encodePatch, toByte_toNat, patchOpAt_encodePatchOp, h]

theorem map_toNat_map_toByte {samples : List Nat} (h : samples.all fits8 = true) :
    (samples.map toByte).map BitVec.toNat = samples := by
  rw [List.map_map]
  exact (List.map_congr_left fun x hx => toByte_toNat (List.all_eq_true.mp h x hx)).trans (List.map_id samples)

/-! ### Decoding a packet -/

theorem assemble_encode_playbuf {div : Nat} {samples : List Nat} (h : (Instr.playbuf div samples).wf = true)
    (rest : List Byte) : assemble (encode (.playbuf div samples) ++ rest) = some (.playbuf div samples) := by
  simp only [Instr.wf, Bool.and_eq_true] at h
  obtain ⟨⟨hdiv, hlen⟩, hall⟩ := h
  have hbuf : bufferLen samples = samples.length := bufferLen_of_lt (of_decide_eq_true hlen)
  have hmap : samples.map (BitVec.toNat ∘ toByte) = samples := by rw [← List.map_map, map_toNat_map_toByte hall]
  simp [assemble, encode, toBytes16, samplesOf, hbuf, halfAt_toByte_div_cons, hdiv, hlen, hmap]

/-- The decoder finds each operand of a well-formed command where the packet holds it (R71, R74 step 4). -/
theorem assemble_encode (i : Instr) (rest : List Byte) (h : i.wf = true) : assemble (encode i ++ rest) = some i := by
  cases i
  case playbuf div samples => exact assemble_encode_playbuf h rest
  case loadpatch ch patch =>
    simp only [Instr.wf, Bool.and_eq_true] at h
    simp [assemble, encode, toByte_toNat, patchAt_encodePatch, h]
  all_goals
    simp only [Instr.wf, Bool.and_eq_true] at h
    simp [assemble, encode, toBytes16, toByte_toNat, halfAt_toByte_div_cons, h]

/-- The 36 laws of `Laws.PacketLength`, for any command (R71, R74 step 3). -/
theorem packetLength_encode (i : Instr) : Laws.PacketLength.Statement i :=
  match i with
  | .write _ _ _ => Laws.PacketLength.write _ _ _
  | .busyq => Laws.PacketLength.busyq
  | .regofs _ => Laws.PacketLength.regofs _
  | .chroute _ => Laws.PacketLength.chroute _
  | .opmap _ _ => Laws.PacketLength.opmap _ _
  | .setalg _ _ _ => Laws.PacketLength.setalg _ _ _
  | .setpan _ _ _ _ _ => Laws.PacketLength.setpan _ _ _ _ _
  | .setfreq _ _ _ => Laws.PacketLength.setfreq _ _ _
  | .keyon _ _ => Laws.PacketLength.keyon _ _
  | .keyoff _ _ => Laws.PacketLength.keyoff _ _
  | .loadpatch _ _ => Laws.PacketLength.loadpatch _ _
  | .settl _ _ _ => Laws.PacketLength.settl _ _ _
  | .setcarrier _ _ => Laws.PacketLength.setcarrier _ _
  | .getfreq _ => Laws.PacketLength.getfreq _
  | .getvol _ => Laws.PacketLength.getvol _
  | .getpatch _ => Laws.PacketLength.getpatch _
  | .envattack _ _ _ => Laws.PacketLength.envattack _ _ _
  | .envrelease _ _ => Laws.PacketLength.envrelease _ _
  | .envtick _ => Laws.PacketLength.envtick _
  | .envreset _ => Laws.PacketLength.envreset _
  | .envupd _ => Laws.PacketLength.envupd _
  | .vibset _ _ _ _ _ => Laws.PacketLength.vibset _ _ _ _ _
  | .vibclr _ => Laws.PacketLength.vibclr _
  | .vibtick _ => Laws.PacketLength.vibtick _
  | .vibupd _ => Laws.PacketLength.vibupd _
  | .pbend _ _ _ => Laws.PacketLength.pbend _ _ _
  | .dacen => Laws.PacketLength.dacen
  | .dacdis => Laws.PacketLength.dacdis
  | .playbuf _ _ => Laws.PacketLength.playbuf _ _
  | .settmra _ => Laws.PacketLength.settmra _
  | .settmrb _ => Laws.PacketLength.settmrb _
  | .tmrstart _ => Laws.PacketLength.tmrstart _
  | .tmrstop => Laws.PacketLength.tmrstop
  | .tmraovf => Laws.PacketLength.tmraovf
  | .tmrbovf => Laws.PacketLength.tmrbovf
  | .frame => Laws.PacketLength.frame

@[simp] theorem decode_nil : decode [] = .error .truncatedPacket := rfl

/-- Bytes that hold a whole packet decode to the command assembled from them (R74 steps 2 to 4). -/
theorem decode_of_packetLength {bs : List Byte} {n : Nat} {i : Instr} (hlen : packetLength bs = some n)
    (hn : n ≤ bs.length) (hi : assemble bs = some i) : decode bs = .ok i := by
  cases bs with
  | nil => cases hlen
  | cons b bs => simp only [decode, List.isEmpty_cons, hlen, Nat.not_lt.mpr hn, hi, Bool.false_eq_true, if_false]

theorem decode_encode (i : Instr) (rest : List Byte) (h : i.wf = true) : decode (encode i ++ rest) = .ok i :=
  decode_of_packetLength (packetLength_encode i rest h) (by simp) (assemble_encode i rest h)

namespace Machine

/-! ### A command moves `cp` by its packet's length -/

/-- Where the answer `r` of a command begun in `s` is a next state, its `cp` is `n` past that of `s`. -/
def AdvancesBy (n : Nat) (s : State) (r : Result) : Prop := ∀ t, r = .next t → t.cp = s.cp + n

section
variable {n : Nat} {s : State}

theorem AdvancesBy.finish {u : State} (h : u.cp = s.cp) : AdvancesBy n s (finish n u) := by
  intro t ht
  rw [← finish_next ht, advance_cp, h]

theorem AdvancesBy.withPort {port : Nat} {k : Port → Result} (h : ∀ p, AdvancesBy n s (k p)) :
    AdvancesBy n s (withPort port s k) := fun t ht =>
  let ⟨p, hp⟩ := withPort_next ht
  h p t hp

theorem AdvancesBy.withChannel {ch : Nat} {k : Fin 6 → Result} (h : ∀ c, AdvancesBy n s (k c)) :
    AdvancesBy n s (withChannel ch s k) := fun t ht =>
  let ⟨c, _, hc⟩ := withChannel_next ht
  h c t hc

theorem AdvancesBy.withOperator {op : Nat} {k : Fin 4 → Result} (h : ∀ o, AdvancesBy n s (k o)) :
    AdvancesBy n s (withOperator op s k) := fun t ht =>
  let ⟨o, _, ho⟩ := withOperator_next ht
  h o t ho

theorem AdvancesBy.withEnvSpeed {speed : Nat} {k : Nat → Result} (h : ∀ sp, AdvancesBy n s (k sp)) :
    AdvancesBy n s (withEnvSpeed speed s k) := fun t ht =>
  let ⟨_, _, hk⟩ := withEnvSpeed_next ht
  h _ t hk

theorem AdvancesBy.withVibSpeed {speed : Nat} {k : BitVec 4 → Result} (h : ∀ sp, AdvancesBy n s (k sp)) :
    AdvancesBy n s (withVibSpeed speed s k) := fun t ht =>
  let ⟨_, _, hk⟩ := withVibSpeed_next ht
  h _ t hk

theorem AdvancesBy.withVibrato {c : Fin 6} {r : Result} (h : AdvancesBy n s r) :
    AdvancesBy n s (withVibrato c s r) := fun t ht => h t (withVibrato_next ht).2

end

@[simp] theorem loadOper_cp (c : Fin 6) (o : Fin 4) (x : OpState) (s : State) : (loadOper c o x s).cp = s.cp := by
  simp [loadOper]

@[simp] theorem statusQuery_cp (f : Config → Byte → Bool) (s : State) : (statusQuery f s).cp = s.cp := rfl

theorem frameChannel_cp (c : Fin 6) (s : State) : (frameChannel c s).cp = s.cp := by
  unfold frameChannel
  dsimp only
  split
  · rw [vibUpdate_cp, envUpdate_cp]
  · rw [envUpdate_cp]

theorem foldl_frameChannel_cp (cs : List (Fin 6)) (s : State) :
    (cs.foldl (fun t c => frameChannel c t) s).cp = s.cp := by
  induction cs generalizing s with
  | nil => rfl
  | cons c cs ih => rw [List.foldl_cons, ih, frameChannel_cp]

theorem encode_playbuf_length (div : Nat) (samples : List Nat) :
    (encode (.playbuf div samples)).length = 5 + bufferLen samples := by
  simp only [encode, List.length_append, List.length_map, length_take_bufferLen, toBytes16, List.length_cons,
    List.length_nil]

/-- Every command that runs to its end has moved `cp` by the length of its packet (R21). -/
theorem exec_advancesBy (i : Instr) (s : State) : AdvancesBy (encode i).length s (exec i s) := by
  unfold exec
  cases i with
  | write port reg val => exact .withPort fun p => .finish (by simp)
  | busyq => exact .finish (by simp)
  | regofs op => exact .withOperator fun o => .finish (by simp)
  | chroute ch => exact .withChannel fun c => .finish (by simp)
  | opmap ch op => exact .withChannel fun c => .withOperator fun o => .finish (by simp)
  | setalg ch alg fb => exact .withChannel fun c => .finish (by simp)
  | setpan ch left right ams pms => exact .withChannel fun c => .finish (by simp)
  | setfreq ch block fnum => exact .withChannel fun c => .finish (by simp)
  | keyon ch mask => exact .withChannel fun c => .finish (by simp)
  | keyoff ch mask => exact .withChannel fun c => .finish (by simp)
  | loadpatch ch patch => exact .withChannel fun c => .finish (by simp)
  | settl ch op tl => exact .withChannel fun c => .withOperator fun o => .finish (by simp)
  | setcarrier ch op => exact .withChannel fun c => .withOperator fun o => .finish (by simp)
  | getfreq ch => exact .withChannel fun c => .finish (by simp)
  | getvol ch => exact .withChannel fun c => .finish (by simp)
  | getpatch ch => exact .withChannel fun c => .finish (by simp)
  | envattack ch target speed => exact .withChannel fun c => .withEnvSpeed fun sp => .finish (by simp)
  | envrelease ch speed => exact .withChannel fun c => .withEnvSpeed fun sp => .finish (by simp)
  | envtick ch => exact .withChannel fun c => .finish (by simp [envTick])
  | envreset ch => exact .withChannel fun c => .finish (by simp)
  | envupd ch => exact .withChannel fun c => .finish (by simp [envUpdate_cp])
  | vibset ch block fnum depth speed => exact .withChannel fun c => .withVibSpeed fun sp => .finish (by simp)
  | vibclr ch => exact .withChannel fun c => .finish (by simp)
  | vibtick ch => exact .withChannel fun c => .withVibrato (.finish (by simp [vibTick]))
  | vibupd ch => exact .withChannel fun c => .withVibrato (.finish (by simp [vibUpdate_cp]))
  | pbend cur tgt spd => exact .finish (by simp)
  | dacen => exact .finish (by simp)
  | dacdis => exact .finish (by simp)
  | playbuf div samples =>
    rw [encode_playbuf_length]
    exact .finish (playSamples_cp s _ _)
  | settmra val => exact .finish (by simp)
  | settmrb val => exact .finish (by simp)
  | tmrstart flags => exact .finish (by simp)
  | tmrstop => exact .finish (by simp)
  | tmraovf => exact .finish (by simp)
  | tmrbovf => exact .finish (by simp)
  | frame => exact .finish (foldl_frameChannel_cp _ s)

theorem exec_cp {i : Instr} {s t : State} (h : exec i s = .next t) : t.cp = s.cp + (encode i).length :=
  exec_advancesBy i s t h

/-! ### No command writes the stream -/

theorem kept_stream (bs : List Byte) : Kept fun s => s.stream = bs where
  portWrite p r v s h := by rw [portWrite_stream, h]
  memRead _ h := h
  wait _ _ h := h
  setChan _ _ _ h := h
  setEnv _ _ _ h := h
  setVib _ _ _ h := h
  respond _ _ h := h
  advance _ _ h := h

theorem exec_stream {i : Instr} {s t : State} (h : exec i s = .next t) : t.stream = s.stream :=
  exec_keeps (kept_stream s.stream) i rfl h

/-- A command that runs to its end leaves `cp` at the bytes behind its packet. -/
theorem exec_drop_packet {i : Instr} {s t : State} {rest : List Byte} (h : exec i s = .next t)
    (hs : s.stream.drop s.cp = encode i ++ rest) : t.stream.drop t.cp = rest := by
  rw [exec_stream h, exec_cp h, ← List.drop_drop, hs, List.drop_left]

/-! ### One step over a packet, and a run over packets -/

/-- At the packet of a well-formed command a step is the command (R74). -/
theorem step_at_packet {s : State} {i : Instr} {rest : List Byte} (hi : i.wf = true)
    (hs : s.stream.drop s.cp = encode i ++ rest) : step s = exec i s := by
  have hdecode : fetchDecode s = .ok i := by rw [fetchDecode, fetch, hs, decode_encode i rest hi]
  have hover : ¬ runOver s = true := by
    intro hcp
    have hend : s.cp = s.stream.length := eq_of_beq hcp
    simp [fetchDecode, fetch, hend] at hdecode
  simp only [step, hover, hdecode, Bool.false_eq_true, if_false]

theorem execAll_cons_next {i : Instr} {is : List Instr} {s t : State} (h : execAll (i :: is) s = .next t) :
    ∃ u, exec i s = .next u ∧ execAll is u = .next t := by
  cases hexec : exec i s with
  | next u => exact ⟨u, rfl, by simpa only [execAll, hexec] using h⟩
  | fault f => cases f
  | refused r => simp [execAll, hexec] at h

/-- Commands that all run to their end move `cp` past all their packets and leave the stream alone. -/
theorem execAll_cp_stream {cmds : List Instr} {s t : State} (h : execAll cmds s = .next t) :
    t.cp = s.cp + (encodeAll cmds).length ∧ t.stream = s.stream := by
  induction cmds generalizing s with
  | nil =>
    cases h
    exact ⟨rfl, rfl⟩
  | cons i is ih =>
    obtain ⟨u, hu, ht⟩ := execAll_cons_next h
    obtain ⟨hcp, hstream⟩ := ih ht
    refine ⟨?_, hstream.trans (exec_stream hu)⟩
    rw [hcp, exec_cp hu, Nat.add_assoc]
    simp [encodeAll]

theorem run_core_of_step_next {n : Nat} {s t : State} (h : step s = .next t) :
    Host.Core.run Sys2Proof.core (n + 1) s = Host.Core.run Sys2Proof.core n t := by
  have hcore : Sys2Proof.core.step s = .next t := h
  simp only [Host.Core.run, hcore]

theorem run_core_of_step_refused {n : Nat} {s : State} {r : Refusal} (h : step s = .refused r) :
    Host.Core.run Sys2Proof.core (n + 1) s = .refused r := by
  have hcore : Sys2Proof.core.step s = .refused r := h
  simp only [Host.Core.run, hcore]

theorem run_eq_execAll {cmds : List Instr} {s : State} (hwf : ∀ i ∈ cmds, i.wf = true)
    (hs : s.stream.drop s.cp = encodeAll cmds) :
    Host.Core.run Sys2Proof.core cmds.length s = execAll cmds s := by
  induction cmds generalizing s with
  | nil => rfl
  | cons i is ih =>
    obtain ⟨hi, his⟩ := List.forall_mem_cons.mp hwf
    have hs' : s.stream.drop s.cp = encode i ++ encodeAll is := hs
    have hstep : step s = exec i s := step_at_packet hi hs'
    cases hexec : exec i s with
    | next t =>
      have hrest : execAll (i :: is) s = execAll is t := by simp only [execAll, hexec]
      rw [hrest, ← ih his (exec_drop_packet hexec hs')]
      exact run_core_of_step_next (hstep.trans hexec)
    | fault f => cases f
    | refused r =>
      have hstop : execAll (i :: is) s = .refused r := by simp only [execAll, hexec]
      rw [hstop]
      exact run_core_of_step_refused (hstep.trans hexec)

/-- Commands whose packets are all that is left of the stream end the run (R309). -/
theorem runOver_of_execAll {cmds : List Instr} {s t : State} (hcp : s.cp ≤ s.stream.length)
    (hs : s.stream.drop s.cp = encodeAll cmds) (h : execAll cmds s = .next t) : runOver t = true := by
  obtain ⟨htcp, htstream⟩ := execAll_cp_stream h
  have hlen : s.stream.length - s.cp = (encodeAll cmds).length := by rw [← hs, List.length_drop]
  simp only [runOver, beq_iff_eq, htcp, htstream]
  omega

/-- Settles O57, by induction on the commands: each step is the command whose packet stands at `cp`, and the packet
behind it is the next command's. -/
theorem packetRunIsTheCommandRun : Obligations.PacketRunIsTheCommandRun := by
  intro cmds s hwf hcp hs
  exact ⟨run_eq_execAll hwf hs, fun t ht => runOver_of_execAll hcp hs ht⟩

end Machine
end Sys2Proof
end

section
/-! PROOFS. What a command does beside its tables: the inputs of a run stay, `cp` moves by the packet, and the bus history
is extended by whole port writes, sample waits and query reads (spec/10_state.md R21, R34, R35, R39). -/

namespace Sys2Proof.Machine

/-! ### The inputs of a run and `cp` -/

theorem kept_cfg (k : Config) : Kept fun s => s.cfg = k where
  portWrite p r v s h := by rw [portWrite_cfg, h]
  memRead _ h := h
  wait _ _ h := h
  setChan _ _ _ h := h
  setEnv _ _ _ h := h
  setVib _ _ _ h := h
  respond _ _ h := h
  advance _ _ h := h

theorem exec_cfg {i : Instr} {s t : State} (h : exec i s = .next t) : t.cfg = s.cfg :=
  exec_keeps (kept_cfg s.cfg) i rfl h

/-- Settles O44: no building block of a meaning writes the parameters or the stream. -/
theorem inputsAreNeverWritten : Obligations.InputsAreNeverWritten :=
  fun _ _ _ h => ⟨exec_cfg h, exec_stream h⟩

/-- Settles O41. -/
theorem commandPointerAdvancesByThePacketLength : Obligations.CommandPointerAdvancesByThePacketLength :=
  fun _ _ _ h => exec_cp h

/-! ### The bus history -/

theorem ProtocolEvents.append {k : Config} {a b : List Event} (ha : ProtocolEvents k a) (hb : ProtocolEvents k b) :
    ProtocolEvents k (a ++ b) := by
  induction ha with
  | nil => exact hb
  | write hw _ ih => rw [List.append_assoc]; exact .write hw ih
  | wait _ ih => exact .wait ih
  | query _ ih => exact .query ih

theorem ProtocolEvents.of_portWriteEvents {k : Config} {w : Port × Byte × Byte} {evs : List Event}
    (h : PortWriteEvents k w evs) : ProtocolEvents k evs := by
  simpa using ProtocolEvents.write h .nil

section
variable {s t u : State} {evs : List Event}

/-- The chip's answers to come are part of the bus side of a state. -/
theorem SameBus.answered (h : SameBus s t) (ha : Answered t evs) : Answered s evs := by
  obtain ⟨-, horacle, hreads, -⟩ := h
  have hanswer : answer t = answer s := by funext n; simp only [answer, horacle, hreads]
  rwa [Answered, hanswer] at ha

theorem SameBus.busAfter (h : SameBus s t) (evs : List Event) : SameBus (busAfter s evs) (busAfter t evs) := by
  obtain ⟨htrace, horacle, hreads, hcapx⟩ := h
  simp only [SameBus, Machine.busAfter, htrace, horacle, hreads, hcapx, and_self]

/-- `u` has the parameters of `s`, and its bus side is that of `s` after a history of whole port writes, sample waits and
query reads. -/
def ExtendsBus (s u : State) : Prop :=
  u.cfg = s.cfg ∧ ∃ evs, ProtocolEvents s.cfg evs ∧ Answered s evs ∧ SameBus (busAfter s evs) u

theorem ExtendsBus.refl (s : State) : ExtendsBus s s :=
  ⟨rfl, [], .nil, .nil s, by rw [busAfter_nil]; exact ⟨rfl, rfl, rfl, rfl⟩⟩

/-- A piece of history that obeys the protocol, put behind the others. -/
theorem ExtendsBus.busAfter (h : ExtendsBus s u) (hp : ProtocolEvents u.cfg evs) (ha : Answered u evs) :
    ExtendsBus s (busAfter u evs) := by
  obtain ⟨hcfg, before, hbefore, hanswered, hbus⟩ := h
  rw [hcfg] at hp
  have hafter := hbus.busAfter evs
  rw [busAfter_busAfter] at hafter
  exact ⟨hcfg, before ++ evs, hbefore.append hp, hanswered.append (hbus.answered ha), hafter⟩

end

theorem kept_extendsBus (s : State) : Kept (ExtendsBus s) where
  portWrite p r v u h := by
    obtain ⟨evs, hw, ha, hu⟩ := portWrite_spec p r v u
    rw [hu]
    exact h.busAfter (.of_portWriteEvents hw) ha
  memRead u h := by
    rw [memRead_eq_busAfter]
    exact h.busAfter (.query .nil) (answered_sr u)
  wait d u h := by
    rw [emit_eq_busAfter u _ rfl (by simp)]
    exact h.busAfter (.wait .nil) (.of_statusReads_nil rfl)
  setChan _ _ _ h := h
  setEnv _ _ _ h := h
  setVib _ _ _ h := h
  respond _ _ h := h
  advance _ _ h := h

theorem exec_extendsBus {i : Instr} {s t : State} (h : exec i s = .next t) : ExtendsBus s t :=
  exec_keeps (kept_extendsBus s) i (.refl s) h

/-- Settles O43: every building block that reaches the bus adds one whole piece of history. -/
theorem historyIsExtendedByWholePortWrites : Obligations.HistoryIsExtendedByWholePortWrites :=
  fun _ _ _ h => (exec_extendsBus h).2

end Sys2Proof.Machine
end

section
/-! PROOFS. What a command does to the three tables and to the responses: one case split over the commands (`exec_ends`),
read by every "written by" column of spec/10_state.md (R22, R26, R29) and by R27 and R33. -/

namespace Sys2Proof.Machine

/-! ### What one command can do to one channel's entry of each table -/

/-- The channel's shadow with the total level of operator `o` replaced: all that `setTotalLevel` writes there (R157). -/
def ChState.withLevel (x : ChState) (o : Fin 4) (level : BitVec 7) : ChState :=
  x.setOper o { x.oper o with totalLevel := level }

theorem withLevel_self (x : ChState) (o : Fin 4) : x.withLevel o (x.oper o).totalLevel = x := setOper_eta x o

section
variable (x : ChState) (o : Fin 4) (level : BitVec 7)

@[simp] theorem withLevel_algorithm : (x.withLevel o level).algorithm = x.algorithm := rfl
@[simp] theorem withLevel_feedback : (x.withLevel o level).feedback = x.feedback := rfl
@[simp] theorem withLevel_left : (x.withLevel o level).left = x.left := rfl
@[simp] theorem withLevel_right : (x.withLevel o level).right = x.right := rfl
@[simp] theorem withLevel_ams : (x.withLevel o level).ams = x.ams := rfl
@[simp] theorem withLevel_pms : (x.withLevel o level).pms = x.pms := rfl
@[simp] theorem withLevel_block : (x.withLevel o level).block = x.block := rfl
@[simp] theorem withLevel_fnum : (x.withLevel o level).fnum = x.fnum := rfl
@[simp] theorem withLevel_carrier : (x.withLevel o level).carrier = x.carrier := rfl

end

/-- An operator that `withLevel` changes is the one named, and only its total level is changed. -/
theorem withLevel_op_of_ne {x : ChState} {o p : Fin 4} {level : BitVec 7}
    (h : (x.withLevel o level).op[p] ≠ x.op[p]) :
    { (x.withLevel o level).op[p] with totalLevel := 0 } = { x.op[p] with totalLevel := 0 } ∧ p = o := by
  have hop : (x.withLevel o level).op[p] = if o = p then { x.oper o with totalLevel := level } else x.op[p] :=
    setOper_oper x o p _
  by_cases ho : o = p
  · subst ho
    exact ⟨by rw [hop, if_pos rfl]; rfl, rfl⟩
  · exact absurd (by rw [hop, if_neg ho]) h

/-- From `CH[c] = x` a command can leave `CH[c]` so (R22). -/
inductive ChanStep (c : Fin 6) (x : ChState) : Instr → ChState → Prop
  | same (i) : ChanStep c x i x
  | setalg (alg fb) : ChanStep c x (.setalg c alg fb) { x with algorithm := mask 3 alg, feedback := mask 3 fb }
  | setpan (l r a m) : ChanStep c x (.setpan c l r a m)
      { x with left := mask1 l, right := mask1 r, ams := mask 2 a, pms := mask 3 m }
  | setfreq (b n) : ChanStep c x (.setfreq c b n) { x with block := mask 3 b, fnum := mask 11 n }
  | loadpatch (p) {y} (hblock : y.block = x.block) (hfnum : y.fnum = x.fnum) (hcarrier : y.carrier = x.carrier) :
      ChanStep c x (.loadpatch c p) y
  | settl (o : Fin 4) (tl) : ChanStep c x (.settl c o tl)
      (x.withLevel o (mask 7 tl))
  | setcarrier (o : Fin 4) : ChanStep c x (.setcarrier c o) { x with carrier := o }
  | envupd (level) : ChanStep c x (.envupd c) (x.withLevel x.carrier level)
  | vibupd (b n) : ChanStep c x (.vibupd c) { x with block := b, fnum := n }
  | frame (level b n) : ChanStep c x .frame { x.withLevel x.carrier level with block := b, fnum := n }

/-- From `ENV[c] = e`, with the parameters `k`, a command can leave `ENV[c]` so (R26). -/
inductive EnvStep (k : Config) (c : Fin 6) (e : EnvState) : Instr → EnvState → Prop
  | same (i) : EnvStep k c e i e
  | attack (target) {speed} (hpos : 1 ≤ speed) (hwidth : speed < 2 ^ k.envSpeedWidth) :
      EnvStep k c e (.envattack c target speed)
        { e with target := mask 7 target, speed := speed, counter := 0, active := true }
  | release {speed} (hpos : 1 ≤ speed) (hwidth : speed < 2 ^ k.envSpeedWidth) :
      EnvStep k c e (.envrelease c speed) { e with target := 127, speed := speed, active := true }
  | reset : EnvStep k c e (.envreset c) EnvState.reset
  | tick {i} (hi : i = .envtick c ∨ i = .envupd c ∨ i = .frame) : EnvStep k c e i (tickEnv e).1

/-- From `VIB[c] = v` a command can leave `VIB[c]` so (R29). -/
inductive VibStep (c : Fin 6) (v : VibState) : Instr → VibState → Prop
  | same (i) : VibStep c v i v
  | set (b n d) {speed} (hpos : 1 ≤ speed) (hmax : speed ≤ 8) : VibStep c v (.vibset c b n d speed)
      { present := true, baseBlock := mask 3 b, baseFnum := mask 11 n, depth := mask 4 d,
        speed := BitVec.ofNat 4 speed, phase := 0 }
  | clear : VibStep c v (.vibclr c) VibState.reset
  | tick {i} (hi : i = .vibtick c ∨ i = .vibupd c ∨ i = .frame) (hpresent : v.present = true) :
      VibStep c v i { v with phase := nextPhase v }

/-- Every entry of the three tables is as command `i` can leave it. -/
structure TableSteps (i : Instr) (s t : State) : Prop where
  chan : ∀ c, ChanStep c (s.chan c) i (t.chan c)
  env : ∀ c, EnvStep s.cfg c (s.envOf c) i (t.envOf c)
  vib : ∀ c, VibStep c (s.vibOf c) i (t.vibOf c)

section
variable {i : Instr} {s t : State} {c : Fin 6}

theorem ChanStep.of_eq {x y : ChState} (h : y = x) : ChanStep c x i y := h ▸ .same i
theorem EnvStep.of_eq {k : Config} {e e' : EnvState} (h : e' = e) : EnvStep k c e i e' := h ▸ .same i
theorem VibStep.of_eq {v v' : VibState} (h : v' = v) : VibStep c v i v' := h ▸ .same i

theorem TableSteps.of_same (hchan : ∀ d, t.chan d = s.chan d := by simp)
    (henv : ∀ d, t.envOf d = s.envOf d := by simp) (hvib : ∀ d, t.vibOf d = s.vibOf d := by simp) :
    TableSteps i s t :=
  ⟨fun d => .of_eq (hchan d), fun d => .of_eq (henv d), fun d => .of_eq (hvib d)⟩

theorem ChanStep.of_ite {x : ChState} (h : ChanStep c (s.chan c) i x)
    (ht : ∀ d, t.chan d = if c = d then x else s.chan d) (d : Fin 6) : ChanStep d (s.chan d) i (t.chan d) := by
  rw [ht]
  split
  next hd => exact hd ▸ h
  next => exact .same i

theorem EnvStep.of_ite {e : EnvState} (h : EnvStep s.cfg c (s.envOf c) i e)
    (ht : ∀ d, t.envOf d = if c = d then e else s.envOf d) (d : Fin 6) :
    EnvStep s.cfg d (s.envOf d) i (t.envOf d) := by
  rw [ht]
  split
  next hd => exact hd ▸ h
  next => exact .same i

theorem VibStep.of_ite {v : VibState} (h : VibStep c (s.vibOf c) i v)
    (ht : ∀ d, t.vibOf d = if c = d then v else s.vibOf d) (d : Fin 6) : VibStep d (s.vibOf d) i (t.vibOf d) := by
  rw [ht]
  split
  next hd => exact hd ▸ h
  next => exact .same i

/-- A command that writes one channel's shadow only. -/
theorem TableSteps.of_chan {x : ChState} (h : ChanStep c (s.chan c) i x)
    (hchan : ∀ d, t.chan d = if c = d then x else s.chan d := by simp)
    (henv : ∀ d, t.envOf d = s.envOf d := by simp) (hvib : ∀ d, t.vibOf d = s.vibOf d := by simp) :
    TableSteps i s t :=
  ⟨h.of_ite hchan, fun d => .of_eq (henv d), fun d => .of_eq (hvib d)⟩

/-- A command that writes one channel's envelope only. -/
theorem TableSteps.of_env {e : EnvState} (h : EnvStep s.cfg c (s.envOf c) i e)
    (henv : ∀ d, t.envOf d = if c = d then e else s.envOf d := by simp)
    (hchan : ∀ d, t.chan d = s.chan d := by simp) (hvib : ∀ d, t.vibOf d = s.vibOf d := by simp) :
    TableSteps i s t :=
  ⟨fun d => .of_eq (hchan d), h.of_ite henv, fun d => .of_eq (hvib d)⟩

/-- A command that writes one channel's vibrato only. -/
theorem TableSteps.of_vib {v : VibState} (h : VibStep c (s.vibOf c) i v)
    (hvib : ∀ d, t.vibOf d = if c = d then v else s.vibOf d := by simp)
    (hchan : ∀ d, t.chan d = s.chan d := by simp) (henv : ∀ d, t.envOf d = s.envOf d := by simp) :
    TableSteps i s t :=
  ⟨fun d => .of_eq (hchan d), fun d => .of_eq (henv d), h.of_ite hvib⟩

end

/-! ### The procedures on the tables -/

section
variable (s : State) (c d : Fin 6)

@[simp] theorem loadOper_envOf (o : Fin 4) (x : OpState) : (loadOper c o x s).envOf d = s.envOf d := by simp [loadOper]
@[simp] theorem loadOper_vibOf (o : Fin 4) (x : OpState) : (loadOper c o x s).vibOf d = s.vibOf d := by simp [loadOper]
@[simp] theorem loadOper_out (o : Fin 4) (x : OpState) : (loadOper c o x s).out = s.out := by simp [loadOper]

@[simp] theorem statusQuery_chan (f : Config → Byte → Bool) : (statusQuery f s).chan d = s.chan d := rfl
@[simp] theorem statusQuery_envOf (f : Config → Byte → Bool) : (statusQuery f s).envOf d = s.envOf d := rfl
@[simp] theorem statusQuery_vibOf (f : Config → Byte → Bool) : (statusQuery f s).vibOf d = s.vibOf d := rfl

@[simp] theorem envTick_chan : (envTick c s).chan d = s.chan d := rfl
@[simp] theorem envTick_vibOf : (envTick c s).vibOf d = s.vibOf d := rfl
@[simp] theorem envTick_out : (envTick c s).out = s.out := rfl
@[simp] theorem envTick_envOf : (envTick c s).envOf d = if c = d then (tickEnv (s.envOf c)).1 else s.envOf d :=
  setEnv_envOf s c d _

@[simp] theorem vibTick_chan : (vibTick c s).chan d = s.chan d := rfl
@[simp] theorem vibTick_envOf : (vibTick c s).envOf d = s.envOf d := rfl
@[simp] theorem vibTick_out : (vibTick c s).out = s.out := rfl
@[simp] theorem vibTick_vibOf :
    (vibTick c s).vibOf d = if c = d then { s.vibOf c with phase := nextPhase (s.vibOf c) } else s.vibOf d :=
  setVib_vibOf s c d _

@[simp] theorem playSamples_chan (div : BitVec 16) (xs : List Nat) :
    (playSamples div xs s).chan d = s.chan d := by
  obtain ⟨evs, -, -, h⟩ := playSamples_spec div xs s
  rw [h]; rfl

@[simp] theorem playSamples_envOf (div : BitVec 16) (xs : List Nat) :
    (playSamples div xs s).envOf d = s.envOf d := by
  obtain ⟨evs, -, -, h⟩ := playSamples_spec div xs s
  rw [h]; rfl

@[simp] theorem playSamples_vibOf (div : BitVec 16) (xs : List Nat) :
    (playSamples div xs s).vibOf d = s.vibOf d := by
  obtain ⟨evs, -, -, h⟩ := playSamples_spec div xs s
  rw [h]; rfl

/-- An envelope update writes nothing of a channel's shadow but the carrier's total level (R189). -/
theorem envUpdate_chan_self : ∃ level, (envUpdate c s).chan c = (s.chan c).withLevel (s.chan c).carrier level := by
  rw [envUpdate_chan]
  split
  · exact ⟨_, rfl⟩
  · exact ⟨_, (withLevel_self _ _).symm⟩

/-- One channel of a frame writes nothing of its shadow but the carrier's total level and the frequency (R265). -/
theorem frameChannel_chan_self : ∃ level b n,
    (frameChannel c s).chan c = { (s.chan c).withLevel (s.chan c).carrier level with block := b, fnum := n } := by
  obtain ⟨level, hlevel⟩ := envUpdate_chan_self s c
  unfold frameChannel
  dsimp only
  split
  · exact ⟨level, _, _, by rw [vibUpdate_chan, if_pos rfl, hlevel]⟩
  · exact ⟨level, _, _, hlevel⟩

end

/-! ### A frame, one channel at a time -/

/-- `t` has the entries of channel `d` of `s`. -/
def SameChannel (d : Fin 6) (s t : State) : Prop :=
  t.chan d = s.chan d ∧ t.envOf d = s.envOf d ∧ t.vibOf d = s.vibOf d

theorem frameChannel_of_ne {c d : Fin 6} (h : c ≠ d) (s : State) : SameChannel d s (frameChannel c s) := by
  refine ⟨?_, by simp [frameChannel_envOf, h], by simp [frameChannel_vibOf, h]⟩
  unfold frameChannel
  dsimp only
  split <;> simp [vibUpdate_chan, envUpdate_chan, h]

theorem foldl_frameChannel_of_notMem {d : Fin 6} {cs : List (Fin 6)} (h : d ∉ cs) (s : State) :
    SameChannel d s (cs.foldl (fun t c => frameChannel c t) s) := by
  induction cs generalizing s with
  | nil => exact ⟨rfl, rfl, rfl⟩
  | cons c cs ih =>
    rw [List.mem_cons, not_or] at h
    obtain ⟨hc, hcs⟩ := h
    obtain ⟨hchan, henv, hvib⟩ := frameChannel_of_ne (Ne.symm hc) s
    obtain ⟨ihchan, ihenv, ihvib⟩ := ih hcs (frameChannel c s)
    exact ⟨ihchan.trans hchan, ihenv.trans henv, ihvib.trans hvib⟩

/-- FRAME visits every channel once, so a channel's entries are those its own part leaves (R265). -/
theorem frame_channel (d : Fin 6) (s : State) : ∃ u, SameChannel d s u ∧
    SameChannel d (frameChannel d u) (frameOrder.foldl (fun t c => frameChannel c t) s) := by
  obtain ⟨before, after, horder⟩ := List.append_of_mem ((by decide : ∀ c, c ∈ frameOrder) d)
  have hnodup : frameOrder.Nodup := by decide
  rw [horder, List.nodup_middle, List.nodup_cons, List.mem_append, not_or] at hnodup
  obtain ⟨⟨hbefore, hafter⟩, -⟩ := hnodup
  rw [horder, List.foldl_append, List.foldl_cons]
  exact ⟨_, foldl_frameChannel_of_notMem hbefore s, foldl_frameChannel_of_notMem hafter _⟩

/-- An envelope update of one channel, then a response (R189). -/
theorem tableSteps_envUpdate (c : Fin 6) (s : State) (n : Nat) (bs : List Byte) :
    TableSteps (.envupd c) s (advance n (respond bs (envUpdate c s))) := by
  obtain ⟨level, hself⟩ := envUpdate_chan_self s c
  refine ⟨(ChanStep.envupd level).of_ite fun d => ?_, (EnvStep.tick (.inr (.inl rfl))).of_ite (envUpdate_envOf s c),
    fun d => .of_eq (envUpdate_vibOf s c d)⟩
  rw [advance_chan, respond_chan]
  split
  next hd => rw [← hd, hself]
  next hd => simp [envUpdate_chan, hd]

/-- A vibrato update of one channel with a vibrato, then a response (R208). -/
theorem tableSteps_vibUpdate (c : Fin 6) (s : State) (hpresent : (s.vibOf c).present = true) (n : Nat)
    (bs : List Byte) : TableSteps (.vibupd c) s (advance n (respond bs (vibUpdate c s))) where
  chan := (ChanStep.vibupd _ _).of_ite (vibUpdate_chan s c)
  env d := .of_eq (vibUpdate_envOf s c d)
  vib := (VibStep.tick (.inr (.inl rfl)) hpresent).of_ite (vibUpdate_vibOf s c)

theorem tableSteps_frame (s : State) :
    TableSteps .frame s (advance 1 (frameOrder.foldl (fun t c => frameChannel c t) s)) := by
  constructor
  case chan =>
    intro d
    obtain ⟨u, ⟨hu, -, -⟩, ⟨ht, -, -⟩⟩ := frame_channel d s
    obtain ⟨level, b, n, hself⟩ := frameChannel_chan_self u d
    rw [advance_chan, ht, hself, hu]
    exact .frame level b n
  case env =>
    intro d
    obtain ⟨u, ⟨-, hu, -⟩, ⟨-, ht, -⟩⟩ := frame_channel d s
    rw [advance_envOf, ht, frameChannel_envOf, if_pos rfl, hu]
    exact .tick (.inr (.inr rfl))
  case vib =>
    intro d
    obtain ⟨u, ⟨-, -, hu⟩, ⟨-, -, ht⟩⟩ := frame_channel d s
    rw [advance_vibOf, ht, frameChannel_vibOf, hu]
    split
    next h => exact .tick (.inr (.inr rfl)) h.2
    next => exact .same _

@[simp] theorem foldl_frameChannel_out (cs : List (Fin 6)) (s : State) :
    (cs.foldl (fun t c => frameChannel c t) s).out = s.out := by
  induction cs generalizing s with
  | nil => rfl
  | cons c cs ih =>
    rw [List.foldl_cons, ih]
    unfold frameChannel
    dsimp only
    split
    · rw [vibUpdate_out, envUpdate_out]
    · rw [envUpdate_out]

/-! ### Responses -/

/-- `OUT` is extended by as many bytes as R71's "resp" column gives command `i`. -/
def Responds (i : Instr) (s t : State) : Prop := ∃ bs, t.out = s.out ++ bs ∧ bs.length = responseBytes i

theorem Responds.silent {i : Instr} {s t : State} (h : t.out = s.out := by simp)
    (hi : responseBytes i = 0 := by rfl) : Responds i s t :=
  ⟨[], by rw [h, List.append_nil], hi.symm⟩

theorem Responds.respond {i : Instr} {s u : State} {n : Nat} {bs : List Byte} (h : u.out = s.out := by simp)
    (hi : bs.length = responseBytes i := by rfl) : Responds i s (advance n (respond bs u)) :=
  ⟨bs, by rw [advance_out, respond_out, h], hi⟩

/-! ### Every command -/

/-- Where a command answers `r` with a next state, `Q` holds of it. -/
def Ends (Q : State → Prop) (r : Result) : Prop := ∀ t, r = .next t → Q t

section
variable {s : State} {Q : State → Prop}

theorem Ends.finish {n : Nat} {u : State} (h : Q (advance n u)) : Ends Q (finish n u) := fun _ ht => finish_next ht ▸ h

theorem Ends.withPort {port : Nat} {k : Port → Result} (h : ∀ p, Ends Q (k p)) : Ends Q (withPort port s k) :=
  fun t ht =>
    let ⟨p, hp⟩ := withPort_next ht
    h p t hp

theorem Ends.withChannel {ch : Nat} {k : Fin 6 → Result} (h : ∀ c : Fin 6, ch = c → Ends Q (k c)) :
    Ends Q (withChannel ch s k) := fun t ht =>
  let ⟨c, hch, hc⟩ := withChannel_next ht
  h c hch t hc

theorem Ends.withOperator {op : Nat} {k : Fin 4 → Result} (h : ∀ o : Fin 4, op = o → Ends Q (k o)) :
    Ends Q (withOperator op s k) := fun t ht =>
  let ⟨o, hop, ho⟩ := withOperator_next ht
  h o hop t ho

theorem Ends.withEnvSpeed {speed : Nat} {k : Nat → Result}
    (h : 1 ≤ speed → speed < 2 ^ s.cfg.envSpeedWidth → Ends Q (k speed)) : Ends Q (withEnvSpeed speed s k) :=
  fun t ht =>
    let ⟨hpos, hwidth, hk⟩ := withEnvSpeed_next ht
    h hpos hwidth t hk

theorem Ends.withVibSpeed {speed : Nat} {k : BitVec 4 → Result}
    (h : 1 ≤ speed → speed ≤ 8 → Ends Q (k (BitVec.ofNat 4 speed))) : Ends Q (withVibSpeed speed s k) :=
  fun t ht =>
    let ⟨hpos, hmax, hk⟩ := withVibSpeed_next ht
    h hpos hmax t hk

theorem Ends.withVibrato {c : Fin 6} {r : Result} (h : (s.vibOf c).present = true → Ends Q r) :
    Ends Q (withVibrato c s r) := fun t ht =>
  let ⟨hpresent, hr⟩ := withVibrato_next ht
  h hpresent t hr

end

/-- What a command that runs to its end has done to the tables and to `OUT`. -/
theorem exec_ends (i : Instr) (s : State) : Ends (fun t => TableSteps i s t ∧ Responds i s t) (exec i s) := by
  unfold exec
  cases i with
  | write port reg val => exact .withPort fun p => .finish ⟨.of_same, .silent⟩
  | busyq => exact .finish ⟨.of_same, .respond⟩
  | regofs op => exact .withOperator fun o _ => .finish ⟨.of_same, .respond⟩
  | chroute ch => exact .withChannel fun c _ => .finish ⟨.of_same, .respond⟩
  | opmap ch op => exact .withChannel fun c _ => .withOperator fun o _ => .finish ⟨.of_same, .respond⟩
  | setalg ch alg fb =>
    refine .withChannel ?_
    rintro c rfl
    exact .finish ⟨.of_chan (.setalg alg fb), .silent⟩
  | setpan ch left right ams pms =>
    refine .withChannel ?_
    rintro c rfl
    exact .finish ⟨.of_chan (.setpan left right ams pms), .silent⟩
  | setfreq ch block fnum =>
    refine .withChannel ?_
    rintro c rfl
    exact .finish ⟨.of_chan (.setfreq block fnum), .silent⟩
  | keyon ch mask => exact .withChannel fun c _ => .finish ⟨.of_same, .silent⟩
  | keyoff ch mask => exact .withChannel fun c _ => .finish ⟨.of_same, .silent⟩
  | loadpatch ch patch =>
    refine .withChannel ?_
    rintro c rfl
    refine .finish ⟨⟨fun d => ?_, fun d => .of_eq (by simp), fun d => .of_eq (by simp)⟩, .silent⟩
    by_cases hd : c = d
    · subst hd
      exact .loadpatch patch (by simp [ChState.setOper]) (by simp [ChState.setOper]) (by simp [ChState.setOper])
    · exact .of_eq (by simp [hd])
  | settl ch op tl =>
    refine .withChannel ?_
    rintro c rfl
    refine .withOperator ?_
    rintro o rfl
    exact .finish ⟨.of_chan (.settl o tl) (setTotalLevel_chan s c · o _), .silent⟩
  | setcarrier ch op =>
    refine .withChannel ?_
    rintro c rfl
    refine .withOperator ?_
    rintro o rfl
    exact .finish ⟨.of_chan (.setcarrier o), .silent⟩
  | getfreq ch => exact .withChannel fun c _ => .finish ⟨.of_same, .respond⟩
  | getvol ch => exact .withChannel fun c _ => .finish ⟨.of_same, .respond⟩
  | getpatch ch => exact .withChannel fun c _ => .finish ⟨.of_same, .respond⟩
  | envattack ch target speed =>
    refine .withChannel ?_
    rintro c rfl
    exact .withEnvSpeed fun hpos hwidth => .finish ⟨.of_env (.attack target hpos hwidth), .silent⟩
  | envrelease ch speed =>
    refine .withChannel ?_
    rintro c rfl
    exact .withEnvSpeed fun hpos hwidth => .finish ⟨.of_env (.release hpos hwidth), .silent⟩
  | envtick ch =>
    refine .withChannel ?_
    rintro c rfl
    exact .finish ⟨.of_env (.tick (.inl rfl)), .respond⟩
  | envreset ch =>
    refine .withChannel ?_
    rintro c rfl
    exact .finish ⟨.of_env .reset (setEnv_envOf s c · _), .silent⟩
  | envupd ch =>
    refine .withChannel ?_
    rintro c rfl
    exact .finish ⟨tableSteps_envUpdate c s 2 _, .respond (envUpdate_out s c)⟩
  | vibset ch block fnum depth speed =>
    refine .withChannel ?_
    rintro c rfl
    exact .withVibSpeed fun hpos hmax => .finish ⟨.of_vib (.set block fnum depth hpos hmax), .silent⟩
  | vibclr ch =>
    refine .withChannel ?_
    rintro c rfl
    exact .finish ⟨.of_vib .clear (setVib_vibOf s c · _), .silent⟩
  | vibtick ch =>
    refine .withChannel ?_
    rintro c rfl
    exact .withVibrato fun hpresent =>
      .finish ⟨.of_vib (.tick (.inl rfl) hpresent), .respond⟩
  | vibupd ch =>
    refine .withChannel ?_
    rintro c rfl
    exact .withVibrato fun hpresent =>
      .finish ⟨tableSteps_vibUpdate c s hpresent 2 _, .respond (vibUpdate_out s c)⟩
  | pbend cur tgt spd => exact .finish ⟨.of_same, .respond⟩
  | dacen => exact .finish ⟨.of_same, .silent⟩
  | dacdis => exact .finish ⟨.of_same, .silent⟩
  | playbuf div samples => exact .finish ⟨.of_same, .silent (playSamples_out s _ _)⟩
  | settmra val => exact .finish ⟨.of_same, .silent⟩
  | settmrb val => exact .finish ⟨.of_same, .silent⟩
  | tmrstart flags => exact .finish ⟨.of_same, .silent⟩
  | tmrstop => exact .finish ⟨.of_same, .silent⟩
  | tmraovf => exact .finish ⟨.of_same, .respond⟩
  | tmrbovf => exact .finish ⟨.of_same, .respond⟩
  | frame => exact .finish ⟨tableSteps_frame s, .silent⟩

theorem exec_tables {i : Instr} {s t : State} (h : exec i s = .next t) : TableSteps i s t := (exec_ends i s t h).1

theorem exec_responds {i : Instr} {s t : State} (h : exec i s = .next t) : Responds i s t := (exec_ends i s t h).2

end Sys2Proof.Machine
end

section
/-! PROOFS. The "written by" columns of spec/10_state.md (R22, R26, R29, R33) and R27's inactive envelopes, each read off
the ways a command can leave an entry of its table (`exec_tables`). -/

namespace Sys2Proof.Machine

/-! ### The "written by" columns -/

/-- Settles O42. -/
theorem responsesAreOnlyAppended : Obligations.ResponsesAreOnlyAppended := fun _ _ _ h => exec_responds h

/-- Settles O46, by the five ways a command can leave an envelope. -/
theorem envelopeFieldsChangeOnlyByTheirWriters : Obligations.EnvelopeFieldsChangeOnlyByTheirWriters := by
  intro i s t c h
  have hstep := (exec_tables h).env c
  generalize s.envOf c = e, t.envOf c = e' at hstep ⊢
  cases hstep with
  | same => simp
  | attack target hpos hwidth => simp
  | release hpos hwidth => simp
  | reset => simp
  | tick hi =>
    obtain ⟨htarget, hspeed⟩ := tickEnv_keeps e
    rcases hi with rfl | rfl | rfl <;> simp [htarget, hspeed]

/-- Settles O47, by the four ways a command can leave a vibrato. -/
theorem vibratoFieldsChangeOnlyByTheirWriters : Obligations.VibratoFieldsChangeOnlyByTheirWriters := by
  intro i s t c h
  have hstep := (exec_tables h).vib c
  generalize s.vibOf c = v, t.vibOf c = v' at hstep ⊢
  cases hstep with
  | same => simp
  | set b n d hpos hmax => simp
  | clear => simp
  | tick hi hpresent => rcases hi with rfl | rfl | rfl <;> simp

/-- Settles O45, by the ten ways a command can leave a channel's shadow. -/
theorem shadowFieldsChangeOnlyByTheirWriters : Obligations.ShadowFieldsChangeOnlyByTheirWriters := by
  intro i s t c h
  have hstep := (exec_tables h).chan c
  generalize s.chan c = x, t.chan c = y at hstep ⊢
  cases hstep with
  | same => simp
  | setalg alg fb => simp
  | setpan l r a m => simp
  | setfreq b n => simp
  | loadpatch p hblock hfnum hcarrier => simp [hblock, hfnum, hcarrier]
  | settl o tl =>
    refine ⟨by simp, by simp, by simp, by simp, fun p hp => .inr ?_⟩
    obtain ⟨heq, rfl⟩ := withLevel_op_of_ne hp
    exact ⟨heq, .inl ⟨tl, rfl⟩⟩
  | setcarrier o => simp
  | envupd level =>
    refine ⟨by simp, by simp, by simp, by simp, fun p hp => .inr ?_⟩
    obtain ⟨heq, rfl⟩ := withLevel_op_of_ne hp
    exact ⟨heq, .inr ⟨.inl rfl, rfl⟩⟩
  | vibupd b n => simp
  | frame level b n =>
    refine ⟨by simp, by simp, by simp, by simp, fun p hp => .inr ?_⟩
    obtain ⟨heq, rfl⟩ := withLevel_op_of_ne hp
    exact ⟨heq, .inr ⟨.inr rfl, rfl⟩⟩

/-! ### Inactive envelopes and their targets (R27) -/

/-- A tick that ends a ramp ends it at the target (R184). -/
theorem tickEnv_inactive_at_target {e : EnvState} (h : e.active = false → e.current = e.target)
    (hoff : (tickEnv e).1.active = false) : (tickEnv e).1.current = (tickEnv e).1.target := by
  unfold tickEnv at hoff ⊢
  split at hoff
  next hon =>
    split at hoff
    next hstep => simpa [hon, hstep] using hoff
    next hwait => simp [hon] at hoff
  next hidle => simpa [hidle] using h hoff

theorem EnvStep.inactive_at_target {k : Config} {c : Fin 6} {e e' : EnvState} {i : Instr} (hstep : EnvStep k c e i e')
    (h : e.active = false → e.current = e.target) (hoff : e'.active = false) : e'.current = e'.target := by
  cases hstep with
  | same => exact h hoff
  | attack target hpos hwidth => cases hoff
  | release hpos hwidth => cases hoff
  | reset => rfl
  | tick hi => exact tickEnv_inactive_at_target h hoff

theorem stepToward_self (v : BitVec 7) : stepToward v v = v := by simp [stepToward]

/-- A tick of an active envelope at its target keeps the volume, and ends the ramp exactly when it steps (R185). -/
theorem tickEnv_at_target {e : EnvState} (hon : e.active = true) (h : e.current = e.target) :
    (tickEnv e).1.current = e.current ∧ ((tickEnv e).1.active = false ↔ e.speed ≤ e.counter + 1) := by
  by_cases hstep : e.speed ≤ e.counter + 1 <;> simp [tickEnv, hon, hstep, h, stepToward_self]

section
variable {s : State} (c : Fin 6)

theorem exec_envattack {speed : Nat} (target : Nat) (h : 1 ≤ speed ∧ speed < 2 ^ s.cfg.envSpeedWidth) :
    exec (.envattack c target speed) s = .next (advance 4 (setEnv c
      { s.envOf c with target := mask 7 target, speed := speed, counter := 0, active := true } s)) := by
  simp only [exec, execEnvattack, withChannel_fin, withEnvSpeed_legal h, finish]

theorem exec_envrelease {speed : Nat} (h : 1 ≤ speed ∧ speed < 2 ^ s.cfg.envSpeedWidth) :
    exec (.envrelease c speed) s = .next (advance 3 (setEnv c
      { s.envOf c with target := 127, speed := speed, active := true } s)) := by
  simp only [exec, execEnvrelease, withChannel_fin, withEnvSpeed_legal h, finish]

theorem exec_envtick : exec (.envtick c) s =
    .next (advance 2 (respond [boolByte (envChanged c s)] (envTick c s))) := by
  simp only [exec, execEnvtick, withChannel_fin, finish]

end

/-- Settles O24: the first part by the ways a command can leave an envelope, the others by running the command. -/
theorem inactiveEnvelopeIsAtItsTarget : Obligations.InactiveEnvelopeIsAtItsTarget := by
  refine ⟨fun i s t hs h c => ((exec_tables h).env c).inactive_at_target (hs c), ?_, ?_⟩
  · intro c speed s hpos hwidth
    refine ⟨⟨_, exec_envattack c _ ⟨hpos, hwidth⟩, ?_, ?_⟩,
      fun hsilent => ⟨_, exec_envrelease c ⟨hpos, hwidth⟩, ?_, ?_⟩⟩
    · simp
    · simp [mask]
    · simp
    · simp [hsilent]
  · intro c s hon htarget
    refine ⟨_, exec_envtick c, ?_⟩
    simpa using tickEnv_at_target hon htarget

end Sys2Proof.Machine
end

section
/-! PROOFS. The invariant: a step is a command decoded from a packet within the stream (spec/30_encoding.md R74), and every
command keeps each envelope's, each vibrato's and the bus counters' part (spec/10_state.md R21, R26, R27, R29, R35). -/

namespace Sys2Proof

/-! ### A decoded packet lies within the bytes it was decoded from -/

/-- PLAYBUF's samples are as many as its `len` operand says, where the bytes hold them all (R71). -/
theorem bufferLen_samplesOf {bs : List Byte} (h : 5 + halfAt bs 3 ≤ bs.length) :
    bufferLen (samplesOf bs) = halfAt bs 3 := by
  have hlen : (samplesOf bs).length = halfAt bs 3 := by
    simp only [samplesOf, List.length_map, List.length_take, List.length_drop]
    omega
  have hlt := halfAt_lt bs 3
  rw [bufferLen_of_lt (by omega), hlen]

/-- The command assembled from bytes that hold its whole packet has a packet of the length the decoder went by. -/
theorem packetLength_of_assemble {bs : List Byte} {i : Instr} {n : Nat} (h : assemble bs = some i)
    (hn : packetLength bs = some n) (hle : n ≤ bs.length) : (encode i).length = n := by
  unfold assemble at h
  dsimp only at h
  split at h
  -- PLAYBUF, the one opcode whose packet has a length of its own; the last case is the reserved opcodes'
  case h_29 hop =>
    cases h
    simp only [packetLength, headerLength, hop, Option.some.injEq, reduceIte] at hn
    subst hn
    rw [Machine.encode_playbuf_length, bufferLen_samplesOf hle]
  case h_37 => cases h
  all_goals
    cases h
    next hop =>
      simp only [packetLength, headerLength, hop, Option.some.injEq, reduceIte, Nat.reduceEqDiff] at hn
      exact hn
/-- A command is decoded from bytes that hold its whole packet (R74 step 3). -/
theorem encode_length_le_of_decode {bs : List Byte} {i : Instr} (h : decode bs = .ok i) :
    (encode i).length ≤ bs.length := by
  unfold decode at h
  split at h
  · cases h
  · split at h
    next => cases h
    next n hn =>
      split at h
      next => cases h
      next hle =>
        split at h
        next => cases h
        next hi =>
          cases h
          rw [packetLength_of_assemble hi hn (Nat.not_lt.mp hle)]
          exact Nat.not_lt.mp hle

namespace Machine

/-! ### Each envelope and each vibrato keeps its own invariant -/

/-- A counter that a tick leaves counting is below the speed, so its successor is of the speed's width (R184). -/
theorem tickEnv_inv {k : Config} {e : EnvState} (h : e.Inv k) : (tickEnv e).1.Inv k := by
  obtain ⟨hpos, hwidth, hcounter, hoff⟩ := h
  unfold tickEnv
  split
  next hon =>
    split
    next hstep => exact ⟨hpos, hwidth, by dsimp only; omega, fun hend => ⟨by simpa using hend, .inl rfl⟩⟩
    next hwait => exact ⟨hpos, hwidth, by dsimp only; omega, fun hend => absurd (hon.symm.trans hend) (by simp)⟩
  next => exact ⟨hpos, hwidth, hcounter, hoff⟩

section
variable {k : Config} {c : Fin 6} {i : Instr}

theorem one_le_envSpeedWidth (h : k.wf = true) : 1 ≤ k.envSpeedWidth := by
  simp only [Config.wf, Bool.and_eq_true, decide_eq_true_eq] at h
  obtain ⟨⟨⟨-, hwidth⟩, -⟩, -⟩ := h
  exact hwidth

theorem EnvStep.inv {e e' : EnvState} (hk : k.wf = true) (hstep : EnvStep k c e i e') (h : e.Inv k) : e'.Inv k := by
  have hone : 1 < 2 ^ k.envSpeedWidth := Nat.one_lt_two_pow (Nat.one_le_iff_ne_zero.mp (one_le_envSpeedWidth hk))
  have ⟨_, _, hcounter, _⟩ := h
  cases hstep with
  | same => exact h
  | attack target hpos hwidth => exact ⟨hpos, hwidth, hone, nofun⟩
  | release hpos hwidth => exact ⟨hpos, hwidth, hcounter, nofun⟩
  | reset => exact ⟨le_rfl, hone, hone, fun _ => ⟨rfl, .inl rfl⟩⟩
  | tick hi => exact tickEnv_inv h

theorem VibStep.inv {v v' : VibState} (hstep : VibStep c v i v') (h : v.Inv k) : v'.Inv k := by
  cases hstep with
  | same => exact h
  | set b n d hpos hmax =>
    simp only [VibState.Inv, BitVec.toNat_ofNat]
    exact ⟨by omega, by omega, nofun⟩
  | clear => exact ⟨by decide, by decide, fun _ => .inr rfl⟩
  | tick hi hpresent =>
    obtain ⟨hpos, hmax, -⟩ := h
    exact ⟨hpos, hmax, fun habsent => absurd (hpresent.symm.trans habsent) (by simp)⟩

end

/-! ### The machine keeps its invariant -/

/-- A command whose packet lies in the stream keeps the invariant. -/
theorem exec_inv {i : Instr} {s t : State} (hs : s.Inv) (h : exec i s = .next t)
    (hpacket : s.cp + (encode i).length ≤ s.stream.length) : t.Inv := by
  have htables := exec_tables h
  have hcfg := exec_cfg h
  obtain ⟨-, evs, -, -, htrace, -, hreads, hcapx⟩ := exec_extendsBus h
  constructor
  case cfg => rw [hcfg, hs.cfg]
  case cp => rw [exec_cp h, exec_stream h]; exact hpacket
  case env => exact fun c => hcfg ▸ (htables.env c).inv hs.cfg (hs.env c)
  case vib => exact fun c => hcfg ▸ (htables.vib c).inv (hs.vib c)
  case capx =>
    rw [hcapx, htrace, busAfter_capx_toNat, busAfter_trace, capCount_append, hs.capx]
    omega
  case reads => rw [hreads, htrace, busAfter_reads, busAfter_trace, statusReads_append, List.length_append, hs.reads]

theorem step_next {s t : State} (h : step s = .next t) :
    s = t ∨ ∃ i, decode (s.stream.drop s.cp) = .ok i ∧ exec i s = .next t := by
  unfold step at h
  split at h
  next => cases h; exact .inl rfl
  next =>
    split at h
    next i hi => exact .inr ⟨i, hi, h⟩
    next e _ => cases e <;> cases h

/-- Settles O60: a step is nothing, or a command decoded from a packet within the stream. -/
theorem everyStepKeepsTheInvariant : Obligations.EveryStepKeepsTheInvariant := by
  intro s t hs h
  rcases step_next h with rfl | ⟨i, hi, hexec⟩
  · exact hs
  · have hlen := encode_length_le_of_decode hi
    have hcp := hs.cp
    rw [List.length_drop] at hlen
    exact exec_inv hs hexec (by omega)

end Machine
end Sys2Proof
end

section
/-! PROOFS. Commands against packets: bytes that decode to a command are its packet (spec/30_encoding.md R70 to R72, R76),
and the three outcomes of the decoder told apart by the packet length alone (R71, R74 steps 2 and 3, R77). -/

namespace Sys2Proof

/-! ### Operands read from bytes fit the packet -/

@[simp] theorem fits8_byteAt (bs : List Byte) (k : Nat) : fits8 (byteAt bs k) = true := decide_eq_true (byteAt_lt bs k)

@[simp] theorem fits16_halfAt (bs : List Byte) (k : Nat) : fits16 (halfAt bs k) = true := decide_eq_true (halfAt_lt bs k)

@[simp] theorem patchOpAt_wf (bs : List Byte) (k : Nat) : (patchOpAt bs k).wf = true := by
  simp [patchOpAt, PatchOp.wf]

@[simp] theorem patchAt_wf (bs : List Byte) (k : Nat) : (patchAt bs k).wf = true := by
  simp [patchAt, Patch.wf]

theorem samplesOf_length_le (bs : List Byte) : (samplesOf bs).length ≤ halfAt bs 3 := by
  rw [samplesOf, List.length_map]
  exact List.length_take_le _ _

theorem samplesOf_all_fits8 (bs : List Byte) : (samplesOf bs).all fits8 = true := by
  simp only [samplesOf, List.all_map, List.all_eq_true]
  exact fun b _ => decide_eq_true b.isLt

theorem playbuf_samplesOf_wf (bs : List Byte) : (Instr.playbuf (halfAt bs 1) (samplesOf bs)).wf = true := by
  have hlen : fits16 (samplesOf bs).length = true :=
    decide_eq_true ((samplesOf_length_le bs).trans_lt (halfAt_lt bs 3))
  simp only [Instr.wf, fits16_halfAt, hlen, samplesOf_all_fits8, Bool.and_self]

/-- The decoder only assembles commands whose operands fit their packet bytes. -/
theorem wf_of_assemble {bs : List Byte} {i : Instr} (h : assemble bs = some i) : i.wf = true := by
  unfold assemble at h
  dsimp only at h
  split at h
  -- PLAYBUF, the one command with a list of operands; the last case is the reserved opcodes'
  case h_29 => cases h; exact playbuf_samplesOf_wf bs
  case h_37 => cases h
  all_goals
    cases h
    simp [Instr.wf]

/-! ### Writing back the operands read: each piece of a packet is the bytes it was read from -/

section
variable {bs : List Byte} {k : Nat}

theorem toByte_byteAt_cons_prefix_drop (h : k < bs.length) (xs : List Byte) :
    toByte (byteAt bs k) :: xs <+: bs.drop k ↔ xs <+: bs.drop (k + 1) := by
  rw [toByte_byteAt bs k h, List.drop_eq_getElem_cons h, List.prefix_cons_inj]

theorem toBytes16_halfAt_append_prefix_drop (h : k + 1 < bs.length) (xs : List Byte) :
    toBytes16 (halfAt bs k) ++ xs <+: bs.drop k ↔ xs <+: bs.drop (k + 2) := by
  rw [toBytes16_halfAt bs k h, List.drop_eq_getElem_cons (by omega : k < bs.length), List.drop_eq_getElem_cons h]
  simp only [List.cons_append, List.nil_append, List.prefix_cons_inj]

theorem toBytes16_halfAt_prefix_drop (h : k + 1 < bs.length) : toBytes16 (halfAt bs k) <+: bs.drop k :=
  (toBytes16_halfAt_append_prefix_drop h []).mpr List.nil_prefix

theorem encodePatchOp_append_prefix_drop (h : k + 11 ≤ bs.length) (xs : List Byte) :
    encodePatchOp (patchOpAt bs k) ++ xs <+: bs.drop k ↔ xs <+: bs.drop (k + 11) := by
  simp (disch := omega) only [encodePatchOp, patchOpAt, List.cons_append, List.nil_append,
    toByte_byteAt_cons_prefix_drop, Nat.add_assoc, Nat.reduceAdd]

theorem encodePatch_length (p : Patch) : (encodePatch p).length = 47 := rfl

theorem encodePatch_prefix_drop (h : k + 47 ≤ bs.length) : encodePatch (patchAt bs k) <+: bs.drop k := by
  rw [← List.append_nil (encodePatch _)]
  simp (disch := omega) only [encodePatch, patchAt, List.append_assoc, List.cons_append, List.nil_append,
    toByte_byteAt_cons_prefix_drop, encodePatchOp_append_prefix_drop, Nat.add_assoc, Nat.reduceAdd, List.nil_prefix]

theorem opcode_cons_prefix {op : Nat} {xs : List Byte} (hop : byteAt bs 0 = op) (hpos : 0 < bs.length)
    (h : xs <+: bs.drop 1) : toByte op :: xs <+: bs :=
  hop ▸ (toByte_byteAt_cons_prefix_drop hpos xs).mpr h

theorem map_toByte_samplesOf (bs : List Byte) : (samplesOf bs).map toByte = (bs.drop 5).take (halfAt bs 3) := by
  rw [samplesOf, List.map_map]
  exact (List.map_congr_left fun b _ => BitVec.ofNat_toNat 8 b).trans (List.map_id _)

end

/-- The packet of PLAYBUF's operands, read from bytes that hold it whole, is those bytes. -/
theorem encode_playbuf_prefix {bs : List Byte} (hop : byteAt bs 0 = 0x62) (h : 5 + halfAt bs 3 ≤ bs.length) :
    encode (.playbuf (halfAt bs 1) (samplesOf bs)) <+: bs := by
  have hbuf := bufferLen_samplesOf h
  have hall : (samplesOf bs).take (halfAt bs 3) = samplesOf bs := List.take_of_length_le (samplesOf_length_le bs)
  simp only [encode, hbuf, hall, map_toByte_samplesOf, List.append_assoc, List.cons_append, List.nil_append]
  apply opcode_cons_prefix hop (by omega)
  rw [toBytes16_halfAt_append_prefix_drop (by omega), toBytes16_halfAt_append_prefix_drop (by omega)]
  exact List.take_prefix _ _

/-- Bytes that hold a whole packet begin with the packet of the command assembled from them (R71, R74 step 4). -/
theorem encode_prefix_of_assemble {bs : List Byte} {i : Instr} {n : Nat} (h : assemble bs = some i)
    (hn : packetLength bs = some n) (hle : n ≤ bs.length) : encode i <+: bs := by
  have hlen : (encode i).length ≤ bs.length := (packetLength_of_assemble h hn hle).trans_le hle
  unfold assemble at h
  dsimp only at h
  split at h
  -- PLAYBUF, the one opcode whose packet has a length of its own; the last case is the reserved opcodes'
  case h_29 hop =>
    cases h
    simp only [packetLength, headerLength, hop, Option.some.injEq, reduceIte] at hn
    exact encode_playbuf_prefix hop (hn ▸ hle)
  case h_37 => cases h
  all_goals
    cases h
    next hop =>
      simp only [encode, toBytes16, encodePatch_length, List.length_append, List.length_cons, List.length_nil,
        Nat.reduceAdd] at hlen
      refine opcode_cons_prefix hop (by omega) ?_
      simp (disch := omega) [-List.drop_one, toByte_byteAt_cons_prefix_drop, toBytes16_halfAt_append_prefix_drop,
        toBytes16_halfAt_prefix_drop, encodePatch_prefix_drop]

/-! ### The three outcomes of the decoder -/

/-- A byte with a row in the opcode map has a command (R71). -/
theorem assemble_isSome {bs : List Byte} {n : Nat} (h : packetLength bs = some n) : ∃ i, assemble bs = some i := by
  unfold assemble
  dsimp only
  split
  case h_37 => simp_all [packetLength, headerLength]
  all_goals exact ⟨_, rfl⟩

theorem decode_of_packetLength_none {bs : List Byte} (hne : bs ≠ []) (h : packetLength bs = none) :
    decode bs = .error .reservedOpcode := by
  simp only [decode, List.isEmpty_eq_false_iff.mpr hne, h, Bool.false_eq_true, if_false]

theorem decode_of_length_lt {bs : List Byte} {n : Nat} (h : packetLength bs = some n) (hlt : bs.length < n) :
    decode bs = .error .truncatedPacket := by
  cases bs with
  | nil => rfl
  | cons b bs => simp only [decode, List.isEmpty_cons, h, hlt, Bool.false_eq_true, if_false, if_true]

theorem decode_of_le_length {bs : List Byte} {n : Nat} (h : packetLength bs = some n) (hle : n ≤ bs.length) :
    ∃ i, assemble bs = some i ∧ decode bs = .ok i :=
  let ⟨i, hi⟩ := assemble_isSome h
  ⟨i, hi, decode_of_packetLength h hle hi⟩

theorem decode_eq_reserved_iff {bs : List Byte} (hne : bs ≠ []) :
    decode bs = .error .reservedOpcode ↔ packetLength bs = none := by
  refine ⟨fun h => ?_, decode_of_packetLength_none hne⟩
  cases hn : packetLength bs with
  | none => rfl
  | some n =>
    rcases Nat.lt_or_ge bs.length n with hlt | hle
    · cases h.symm.trans (decode_of_length_lt hn hlt)
    · obtain ⟨i, -, hi⟩ := decode_of_le_length hn hle
      cases h.symm.trans hi

theorem decode_eq_truncated_iff {bs : List Byte} {n : Nat} (hn : packetLength bs = some n) :
    decode bs = .error .truncatedPacket ↔ bs.length < n := by
  refine ⟨fun h => ?_, decode_of_length_lt hn⟩
  by_contra hle
  obtain ⟨i, -, hi⟩ := decode_of_le_length hn (Nat.not_lt.mp hle)
  cases h.symm.trans hi

/-- A decoded command was assembled from bytes that hold its whole packet (R74 steps 2 to 4). -/
theorem assemble_of_decode {bs : List Byte} {i : Instr} (h : decode bs = .ok i) :
    ∃ n, packetLength bs = some n ∧ n ≤ bs.length ∧ assemble bs = some i := by
  have hne : bs ≠ [] := by rintro rfl; cases h
  cases hn : packetLength bs with
  | none => cases h.symm.trans (decode_of_packetLength_none hne hn)
  | some n =>
    rcases Nat.lt_or_ge bs.length n with hlt | hle
    · cases h.symm.trans (decode_of_length_lt hn hlt)
    · obtain ⟨j, hj, hok⟩ := decode_of_le_length hn hle
      cases h.symm.trans hok
      exact ⟨n, rfl, hle, hj⟩

theorem packetLength_eq_none_iff (bs : List Byte) : packetLength bs = none ↔ headerLength (byteAt bs 0) = none := by
  unfold packetLength
  cases headerLength (byteAt bs 0) <;> simp

theorem packetLength_of_ne_playbuf {bs : List Byte} (h : byteAt bs 0 ≠ 0x62) :
    packetLength bs = headerLength (byteAt bs 0) := by
  unfold packetLength
  cases headerLength (byteAt bs 0) <;> simp [h]

/-- PLAYBUF's packet is its five header bytes and as many samples as its `len` operand says (R71). -/
theorem packetLength_playbuf (bs : List Byte) : packetLength (0x62 :: bs) = some (5 + halfAt bs 2) := rfl

namespace Machine

/-- Settles O51: the packet length read is the packet's, and each operand is read back where the packet holds it. -/
theorem decodeEncodeIsIdentity : Obligations.DecodeEncodeIsIdentity := decode_encode

/-- Settles O52: every operand the decoder reads fits its bytes, and written back it is those bytes. -/
theorem decodedBytesAreTheCommandsPacket : Obligations.DecodedBytesAreTheCommandsPacket := by
  intro bs i h
  obtain ⟨n, hn, hle, hi⟩ := assemble_of_decode h
  exact ⟨wf_of_assemble hi, encode_prefix_of_assemble hi hn hle⟩

/-- Settles O54: with the packet length known, the decoder's answer depends on how many bytes remain alone. -/
theorem decoderRefusesReservedAndTruncated : Obligations.DecoderRefusesReservedAndTruncated := by
  refine ⟨fun b rest => ?_, fun b rest n hrow hne => ?_, fun rest hlt => ?_, fun d1 d2 l1 l2 rest => ?_⟩
  · rw [decode_eq_reserved_iff (List.cons_ne_nil b rest), packetLength_eq_none_iff, byteAt_cons_zero,
      headerLength_none _ b.isLt]
  · have hplain : byteAt (b :: rest) 0 ≠ 0x62 := fun h => hne (BitVec.eq_of_toNat_eq h)
    have hn : packetLength (b :: rest) = some n :=
      (packetLength_of_ne_playbuf hplain).trans (headerLength_table _ hrow)
    rw [decode_eq_truncated_iff hn, List.length_cons]
  · refine decode_of_length_lt (packetLength_playbuf rest) ?_
    rw [List.length_cons]
    omega
  · have hn : packetLength (0x62 :: d1 :: d2 :: l1 :: l2 :: rest) = some (5 + (l1.toNat * 256 + l2.toNat)) := rfl
    rw [decode_eq_truncated_iff hn]
    simp only [List.length_cons]
    omega

/-- Settles O53: each is the packet of its command, with nothing behind it. -/
theorem samplePacketsDecode : Obligations.SamplePacketsDecode :=
  ⟨decode_encode (.setfreq 4 3 0x284) [] rfl, decode_encode (.keyon 4 0xF) [] rfl,
    decode_encode (.envattack 1 0x7C 3) [] rfl, decode_encode (.pbend 0x64 0x82 8) [] rfl,
    decode_encode (.playbuf 3 [0x80, 0xFF]) [] rfl, decode_encode .frame [] rfl⟩

/-- Settles O55: the decoder reads the command back from its packet, so the run is not over and the step is `exec`. -/
theorem stepRunsTheDecodedCommand : Obligations.StepRunsTheDecodedCommand := fun _ _ _ hi hs => step_at_packet hi hs

theorem step_of_runOver {s : State} (h : s.cp = s.stream.length) : step s = .next s := by
  simp only [step, runOver, h, beq_self_eq_true, if_true]

theorem step_of_decode_error {s : State} {e : DecodeError} (hcp : s.cp ≠ s.stream.length)
    (h : decode (s.stream.drop s.cp) = .error e) : step s = refuseDecode e s := by
  have hover : runOver s = false := beq_eq_false_iff_ne.mpr hcp
  simp only [step, hover, fetchDecode, fetch, h, Bool.false_eq_true, if_false]

/-- Settles O56: the end of the stream is tested before the packet is decoded, and a refusal carries `cp`. -/
theorem stepEndsOrRefusesWhatIsNoPacket : Obligations.StepEndsOrRefusesWhatIsNoPacket := fun _ =>
  ⟨step_of_runOver, step_of_decode_error, step_of_decode_error⟩

end Machine
end Sys2Proof
end

section
/-! PROOFS. The algorithm, frequency and key bytes as numbers (spec/30_encoding.md R80, R82, R83, R84). -/

namespace Sys2Proof.Machine

/-- A register byte given in plain arithmetic is that number, where the number is a byte. -/
theorem toNat_of_eq_ofNat {b : Byte} {n : Nat} (h : b = BitVec.ofNat 8 n) (hn : n < 256) : b.toNat = n := by
  rw [h, BitVec.toNat_ofNat, Nat.mod_eq_of_lt hn]

/-- Settles O6: each byte is its arithmetic form, and its fields' widths keep that below 256. -/
theorem registerBytesPackTheirFields : Obligations.RegisterBytesPackTheirFields := by
  refine ⟨fun alg fb => ?_, fun block fnum => ?_, fun fnum => ?_, fun enable c => ?_⟩
  · exact toNat_of_eq_ofNat (fAlgFb_arith alg fb) (by omega)
  · exact toNat_of_eq_ofNat (fFreqHi_arith block fnum) (by omega)
  · exact toNat_of_eq_ofNat (fFreqLo_arith fnum) (by omega)
  · have hsel : (if c.val < 3 then c.val else c.val - 3 + 4) = if c.val < 3 then c.val else c.val + 1 := by
      split_ifs <;> omega
    rw [hsel]
    exact toNat_of_eq_ofNat (fKey_arith enable c) (by split_ifs <;> omega)

end Sys2Proof.Machine
end

section
/-! PROOFS. The Port Driver (spec/40_port_driver.md): WRITE (R101), the settle (R102), and the three status queries (R105,
R250, R251). -/

namespace Sys2Proof.Machine

/-! ### WRITE -/

theorem exec_write_port (p : Port) (reg val : Nat) (s : State) : exec (.write (portByte p).toNat reg val) s =
    .next { portWrite p (BitVec.ofNat 8 reg) (BitVec.ofNat 8 val) s with cp := s.cp + 4 } := by
  have hcp := portWrite_cp s p (BitVec.ofNat 8 reg) (BitVec.ofNat 8 val)
  rw [← hcp]
  cases p <;> rfl

/-- Settles O1: the port's number picks the port of the one write, and a number above 1 picks none. -/
theorem writeMakesOnePortWrite : Obligations.WriteMakesOnePortWrite := by
  intro port reg val s
  refine ⟨fun hport => ?_, fun hport => by rw [exec, execWrite, withPort_ge hport]⟩
  match port with
  | 0 => exact ⟨_, afterWrites_portWrite .p0 _ _ s, exec_write_port .p0 reg val s⟩
  | 1 => exact ⟨_, afterWrites_portWrite .p1 _ _ s, exec_write_port .p1 reg val s⟩

/-! ### The status queries -/

/-- A status query is one status read, its answer tested for one bit (R105). -/
theorem finish_statusQuery (flag : Config → Byte → Bool) (s : State) : finish 1 (statusQuery flag s) =
    .next { busAfter s [.sr (answer s 0)] with
      cp := s.cp + 1, out := s.out ++ [if flag s.cfg (answer s 0) then 1 else 0] } := by
  rw [statusQuery, memRead_eq_busAfter, answer_zero]
  rfl

/-- Settles O3. -/
theorem statusQueriesAnswerOneBit : Obligations.StatusQueriesAnswerOneBit := fun s =>
  ⟨finish_statusQuery busyFlag s, finish_statusQuery timerAFlag s, finish_statusQuery timerBFlag s⟩

/-- The three status queries differ only in the bit they test. -/
theorem exec_statusQueryCommand {i : Instr} (h : statusQueryCommand i = true) :
    ∃ flag, ∀ s, exec i s = finish 1 (statusQuery flag s) := by
  unfold statusQueryCommand at h
  split at h
  · exact ⟨busyFlag, fun _ => rfl⟩
  · exact ⟨timerAFlag, fun _ => rfl⟩
  · exact ⟨timerBFlag, fun _ => rfl⟩
  · cases h

/-! ### The settle -/

theorem settle_fixed {s : State} (h : s.cfg.settleMode = .fixed) : settle s = emit (.settle s.cfg.settleIter) s := by
  simp only [settle, h]

theorem settle_poll {s : State} (h : s.cfg.settleMode = .poll) : settle s = pollSettle s.cfg.busyCap s := by
  simp only [settle, h]

/-- The history of the next `n` status reads. -/
def readEvents (s : State) (n : Nat) : List Event := (List.range n).map fun k => .sr (answer s k)

@[simp] theorem statusReads_readEvents (s : State) (n : Nat) :
    statusReads (readEvents s n) = (List.range n).map (answer s) := by
  rw [← statusReads_map_sr ((List.range n).map (answer s)), List.map_map]
  rfl

theorem memRead_busAfter_readEvents (s : State) (n : Nat) :
    memRead (busAfter s (readEvents s n)) = busAfter s (readEvents s (n + 1)) := by
  have hlen : (statusReads (readEvents s n)).length = n := by simp
  rw [memRead_eq_busAfter, busAfter_busAfter, ← answer_zero, answer_busAfter, hlen]
  simp [readEvents, List.range_succ]

/-- The poll loop reads past the answers that show busy (R102). -/
theorem pollSettle_busy {s : State} {m : Nat} (hbusy : ∀ k < m, (answer s k).getLsbD s.cfg.busyBit = true) (n : Nat) :
    pollSettle (m + n) s = pollSettle n (busAfter s (readEvents s m)) := by
  induction m generalizing n with
  | zero => simp [readEvents]
  | succ m ih =>
    have hnext : busyFlag s.cfg (nextStatus (busAfter s (readEvents s m))) = true := by
      simpa [← answer_zero, busyFlag] using hbusy m m.lt_succ_self
    rw [Nat.add_right_comm, Nat.add_assoc, ih (fun k hk => hbusy k (hk.trans m.lt_succ_self)), pollSettle,
      busAfter_cfg, hnext, if_pos rfl, memRead_busAfter_readEvents]

/-- A settle all of whose reads show busy ends with the cap event. -/
theorem pollSettle_all_busy {s : State} {n : Nat} (hbusy : ∀ k < n, (answer s k).getLsbD s.cfg.busyBit = true) :
    pollSettle n s = busAfter s (readEvents s n ++ [.capx]) := by
  rw [← busAfter_busAfter, ← capExceeded_eq_busAfter]
  exact pollSettle_busy hbusy 0

/-- A settle ends at its first read that shows ready. -/
theorem pollSettle_first_ready {s : State} {m n : Nat} (hlt : m < n)
    (hbusy : ∀ k < m, (answer s k).getLsbD s.cfg.busyBit = true)
    (hready : (answer s m).getLsbD s.cfg.busyBit = false) : pollSettle n s = busAfter s (readEvents s (m + 1)) := by
  obtain ⟨r, rfl⟩ := Nat.exists_eq_add_of_lt hlt
  have hnext : busyFlag s.cfg (nextStatus (busAfter s (readEvents s m))) = false := by
    simpa [← answer_zero, busyFlag] using hready
  rw [Nat.add_assoc, pollSettle_busy hbusy, pollSettle, busAfter_cfg, hnext, if_neg Bool.false_ne_true,
    memRead_busAfter_readEvents]

/-- Settles O2: the reads end at the first that shows ready, or at BUSY_CAP where none of BUSY_CAP does. -/
theorem settleWaitsByEitherStrategy : Obligations.SettleWaitsByEitherStrategy := by
  intro s
  refine ⟨fun hfixed => ?_, fun hpoll hcap => ?_⟩
  · rw [settle_fixed hfixed, emit_eq_busAfter s _ rfl (by simp)]
  rw [settle_poll hpoll]
  by_cases hexists : ∃ k, k < s.cfg.busyCap ∧ (answer s k).getLsbD s.cfg.busyBit = false
  case pos =>
    obtain ⟨hlt, hready⟩ := Nat.find_spec hexists
    have hbusy : ∀ k < Nat.find hexists, (answer s k).getLsbD s.cfg.busyBit = true := fun k hk => by
      simpa [hk.trans hlt] using Nat.find_min hexists hk
    generalize Nat.find hexists = m at hlt hready hbusy
    refine ⟨m + 1, by omega, hlt, fun k hk => hbusy k (by omega), fun _ => hready, ⟨?_, fun hall => ?_⟩,
      fun hall => ?_, fun _ => pollSettle_first_ready hlt hbusy hready⟩
    · exact fun hm k hk => hbusy k (by omega)
    · by_contra hne
      exact Bool.false_ne_true (hready.symm.trans (hall m (by omega)))
    · exact absurd (hready.symm.trans (hall m hlt)) Bool.false_ne_true
  case neg =>
    have hbusy : ∀ k < s.cfg.busyCap, (answer s k).getLsbD s.cfg.busyBit = true := by simpa using hexists
    exact ⟨s.cfg.busyCap, hcap, le_rfl, fun k hk => hbusy k (by omega), fun hlt => absurd hlt (lt_irrefl _),
      ⟨fun _ k hk => hbusy k (by omega), fun _ => rfl⟩, fun _ => pollSettle_all_busy hbusy,
      fun hready => absurd hready hexists⟩

end Sys2Proof.Machine
end

section
/-! PROOFS. Two runs side by side, from states that differ only in how settles wait and in what the chip answers: what every
building block but the status read keeps of both, every command but the status queries keeps (`exec_keeps_pair`). -/

namespace Sys2Proof.Machine

/-! ### States alike but for the status -/

/-- `s` with the settle parameters, the answers, the history, the responses and `capx` of `w`. -/
def State.withStatusOf (s w : State) : State :=
  { s with
    cfg := { s.cfg with settleMode := w.cfg.settleMode, settleIter := w.cfg.settleIter, busyCap := w.cfg.busyCap }
    capx := w.capx, out := w.out, trace := w.trace, oracle := w.oracle, reads := w.reads }

@[simp] theorem withStatusOf_chan (s w : State) (c : Fin 6) : (s.withStatusOf w).chan c = s.chan c := rfl
@[simp] theorem withStatusOf_vibOf (s w : State) (c : Fin 6) : (s.withStatusOf w).vibOf c = s.vibOf c := rfl

/-- A state alike to `s` is `s` with that state's own status side. -/
theorem AlikeButForStatus.eq_withStatusOf {s s' : State} (h : AlikeButForStatus s s') : s' = s.withStatusOf s' := by
  obtain ⟨hcp, hstream, hch, henv, hvib, hcfg⟩ := h
  simp only [State.withStatusOf, hcp, hstream, hch, henv, hvib, hcfg]

theorem AlikeButForStatus.refl (s : State) : AlikeButForStatus s s := ⟨rfl, rfl, rfl, rfl, rfl, rfl⟩

/-! ### What the building blocks keep of two alike states -/

/-- A relation between alike states that every building block but the status read keeps, done to both states with the same
arguments. -/
structure KeptPair (R : State → State → Prop) : Prop where
  alike : ∀ {s s'}, R s s' → AlikeButForStatus s s'
  portWrite : ∀ {p r v s s'}, R s s' → R (portWrite p r v s) (portWrite p r v s')
  wait : ∀ {d s s'}, R s s' → R (emit (.swait d) s) (emit (.swait d) s')
  setChan : ∀ {c x s s'}, R s s' → R (setChan c x s) (setChan c x s')
  setEnv : ∀ {c x s s'}, R s s' → R (setEnv c x s) (setEnv c x s')
  setVib : ∀ {c x s s'}, R s s' → R (setVib c x s) (setVib c x s')
  respond : ∀ {bs s s'}, R s s' → R (respond bs s) (respond bs s')
  advance : ∀ {n s s'}, R s s' → R (advance n s) (advance n s')

section
variable {R : State → State → Prop} {s s' : State} (k : KeptPair R) (h : R s s')
include k h

theorem KeptPair.exists_withStatusOf : ∃ w, s' = s.withStatusOf w := ⟨s', (k.alike h).eq_withStatusOf⟩

/-- An entry of `CH` made of what is read after port writes is the same one in both runs. -/
theorem KeptPair.setChan_of_eq {c : Fin 6} {x x' : ChState} (hx : x' = x := by simp) :
    R (Machine.setChan c x s) (Machine.setChan c x' s') := hx ▸ k.setChan h

theorem KeptPair.setFrequency {c : Fin 6} {b : BitVec 3} {n : BitVec 11} :
    R (setFrequency c b n s) (setFrequency c b n s') := by
  obtain ⟨w, rfl⟩ := k.exists_withStatusOf h
  exact k.setChan_of_eq (k.portWrite (k.portWrite h))

theorem KeptPair.setTotalLevel {c : Fin 6} {o : Fin 4} {level : BitVec 7} :
    R (setTotalLevel c o level s) (setTotalLevel c o level s') := by
  obtain ⟨w, rfl⟩ := k.exists_withStatusOf h
  exact k.setChan_of_eq (k.portWrite h)

theorem KeptPair.loadOper {c : Fin 6} {o : Fin 4} {x : OpState} : R (loadOper c o x s) (loadOper c o x s') := by
  obtain ⟨w, rfl⟩ := k.exists_withStatusOf h
  exact k.setChan_of_eq (k.portWrite (k.portWrite (k.portWrite (k.portWrite (k.portWrite (k.portWrite
    (k.portWrite h)))))))

theorem KeptPair.envUpdate {c : Fin 6} : R (envUpdate c s) (envUpdate c s') := by
  obtain ⟨w, rfl⟩ := k.exists_withStatusOf h
  have htick : R (envTick c s) (envTick c (s.withStatusOf w)) := k.setEnv h
  have hchanged : envChanged c (s.withStatusOf w) = envChanged c s := rfl
  unfold Machine.envUpdate
  rw [hchanged]
  dsimp only
  split
  · exact k.setTotalLevel htick
  · exact htick

theorem KeptPair.vibUpdate {c : Fin 6} : R (vibUpdate c s) (vibUpdate c s') := by
  obtain ⟨w, rfl⟩ := k.exists_withStatusOf h
  exact k.setFrequency (k.setVib h)

theorem KeptPair.frameChannel {c : Fin 6} : R (frameChannel c s) (frameChannel c s') := by
  have henv := k.envUpdate h (c := c)
  obtain ⟨w, hw⟩ := k.exists_withStatusOf henv
  unfold Machine.frameChannel
  rw [hw] at henv ⊢
  dsimp only
  rw [withStatusOf_vibOf]
  split
  · exact k.vibUpdate henv
  · exact henv

omit h in
theorem KeptPair.frame (cs : List (Fin 6)) {s s' : State} (h : R s s') :
    R (cs.foldl (fun t c => Machine.frameChannel c t) s) (cs.foldl (fun t c => Machine.frameChannel c t) s') := by
  induction cs generalizing s s' with
  | nil => exact h
  | cons c cs ih => exact ih (k.frameChannel h)

omit h in
theorem KeptPair.playSamples {d : BitVec 16} (xs : List Nat) {s s' : State} (h : R s s') :
    R (playSamples d xs s) (playSamples d xs s') := by
  induction xs generalizing s s' with
  | nil => exact h
  | cons x xs ih =>
    obtain ⟨w, rfl⟩ := k.exists_withStatusOf h
    exact ih (k.wait (k.portWrite h))

end

/-! ### Two answers side by side -/

/-- Where `r` is a next state, so is `r'`, and the two are related. -/
def EndsPair (R : State → State → Prop) (r r' : Result) : Prop := ∀ t, r = .next t → ∃ t', r' = .next t' ∧ R t t'

section
variable {R : State → State → Prop} {s s' w : State}

theorem EndsPair.finish {u u' : State} {n : Nat} (h : R (advance n u) (advance n u')) :
    EndsPair R (finish n u) (finish n u') := fun _ ht => ⟨_, rfl, finish_next ht ▸ h⟩

theorem EndsPair.withPort {port : Nat} {k k' : Port → Result} (h : ∀ p, EndsPair R (k p) (k' p)) :
    EndsPair R (withPort port s k) (withPort port s' k') := by
  match port with
  | 0 => exact h .p0
  | 1 => exact h .p1
  | _ + 2 => exact fun _ ht => nomatch ht

theorem EndsPair.withChannel {ch : Nat} {k k' : Fin 6 → Result} (h : ∀ c, EndsPair R (k c) (k' c)) :
    EndsPair R (withChannel ch s k) (withChannel ch s' k') := by
  intro t ht
  obtain ⟨c, rfl, hc⟩ := withChannel_next ht
  rw [withChannel_fin]
  exact h c t hc

theorem EndsPair.withOperator {op : Nat} {k k' : Fin 4 → Result} (h : ∀ o, EndsPair R (k o) (k' o)) :
    EndsPair R (withOperator op s k) (withOperator op s' k') := by
  intro t ht
  obtain ⟨o, rfl, ho⟩ := withOperator_next ht
  rw [withOperator_fin]
  exact h o t ho

theorem EndsPair.withEnvSpeed {speed : Nat} {k k' : Nat → Result} (h : ∀ sp, EndsPair R (k sp) (k' sp)) :
    EndsPair R (withEnvSpeed speed s k) (withEnvSpeed speed (s.withStatusOf w) k') := by
  intro t ht
  obtain ⟨hpos, hwidth, hk⟩ := withEnvSpeed_next ht
  rw [withEnvSpeed_legal (s := s.withStatusOf w) ⟨hpos, hwidth⟩]
  exact h speed t hk

theorem EndsPair.withVibSpeed {speed : Nat} {k k' : BitVec 4 → Result} (h : ∀ sp, EndsPair R (k sp) (k' sp)) :
    EndsPair R (withVibSpeed speed s k) (withVibSpeed speed s' k') := by
  intro t ht
  obtain ⟨hpos, hmax, hk⟩ := withVibSpeed_next ht
  rw [withVibSpeed_legal ⟨hpos, hmax⟩]
  exact h _ t hk

theorem EndsPair.withVibrato {c : Fin 6} {r r' : Result} (h : EndsPair R r r') :
    EndsPair R (withVibrato c s r) (withVibrato c (s.withStatusOf w) r') := by
  intro t ht
  obtain ⟨hpresent, hr⟩ := withVibrato_next ht
  rw [withVibrato_present (s := s.withStatusOf w) hpresent]
  exact h t hr

end

/-! ### Every command but the status queries -/

/-- What every building block but the status read keeps of two alike states, a command that is no status query keeps. -/
theorem exec_keeps_pair {R : State → State → Prop} (k : KeptPair R) (i : Instr) (hi : statusQueryCommand i = false)
    {s s' : State} (h : R s s') : EndsPair R (exec i s) (exec i s') := by
  obtain ⟨w, rfl⟩ := k.exists_withStatusOf h
  unfold exec
  cases i with
  | write port reg val => exact .withPort fun p => .finish (k.advance (k.portWrite h))
  | busyq => exact nomatch hi
  | regofs op => exact .withOperator fun o => .finish (k.advance (k.respond h))
  | chroute ch => exact .withChannel fun c => .finish (k.advance (k.respond h))
  | opmap ch op => exact .withChannel fun c => .withOperator fun o => .finish (k.advance (k.respond h))
  | setalg ch alg fb => exact .withChannel fun c => .finish (k.advance (k.setChan_of_eq (k.portWrite h)))
  | setpan ch left right ams pms => exact .withChannel fun c => .finish (k.advance (k.setChan_of_eq (k.portWrite h)))
  | setfreq ch block fnum => exact .withChannel fun c => .finish (k.advance (k.setFrequency h))
  | keyon ch mask => exact .withChannel fun c => .finish (k.advance (k.portWrite h))
  | keyoff ch mask => exact .withChannel fun c => .finish (k.advance (k.portWrite h))
  | loadpatch ch patch =>
    exact .withChannel fun c => .finish (k.advance (k.setChan_of_eq
      (k.loadOper (k.loadOper (k.loadOper (k.loadOper (k.portWrite (k.portWrite h))))))))
  | settl ch op tl => exact .withChannel fun c => .withOperator fun o => .finish (k.advance (k.setTotalLevel h))
  | setcarrier ch op => exact .withChannel fun c => .withOperator fun o => .finish (k.advance (k.setChan h))
  | getfreq ch => exact .withChannel fun c => .finish (k.advance (k.respond h))
  | getvol ch => exact .withChannel fun c => .finish (k.advance (k.respond h))
  | getpatch ch => exact .withChannel fun c => .finish (k.advance (k.respond h))
  | envattack ch target speed => exact .withChannel fun c => .withEnvSpeed fun sp => .finish (k.advance (k.setEnv h))
  | envrelease ch speed => exact .withChannel fun c => .withEnvSpeed fun sp => .finish (k.advance (k.setEnv h))
  | envtick ch => exact .withChannel fun c => .finish (k.advance (k.respond (k.setEnv h)))
  | envreset ch => exact .withChannel fun c => .finish (k.advance (k.setEnv h))
  | envupd ch => exact .withChannel fun c => .finish (k.advance (k.respond (k.envUpdate h)))
  | vibset ch block fnum depth speed =>
    exact .withChannel fun c => .withVibSpeed fun sp => .finish (k.advance (k.setVib h))
  | vibclr ch => exact .withChannel fun c => .finish (k.advance (k.setVib h))
  | vibtick ch => exact .withChannel fun c => .withVibrato (.finish (k.advance (k.respond (k.setVib h))))
  | vibupd ch => exact .withChannel fun c => .withVibrato (.finish (k.advance (k.respond (k.vibUpdate h))))
  | pbend cur tgt spd => exact .finish (k.advance (k.respond h))
  | dacen => exact .finish (k.advance (k.portWrite h))
  | dacdis => exact .finish (k.advance (k.portWrite h))
  | playbuf div samples => exact .finish (k.advance (k.playSamples _ h))
  | settmra val => exact .finish (k.advance (k.portWrite (k.portWrite h)))
  | settmrb val => exact .finish (k.advance (k.portWrite h))
  | tmrstart flags => exact .finish (k.advance (k.portWrite h))
  | tmrstop => exact .finish (k.advance (k.portWrite h))
  | tmraovf => exact nomatch hi
  | tmrbovf => exact nomatch hi
  | frame => exact .finish (k.advance (k.frame _ h))

end Sys2Proof.Machine
end

section
/-! PROOFS. What the chip answers and how settles wait: no status read in FIXED mode but the queries' (R102, R281), and the
bytes written do not depend on the status (R104). -/

namespace Sys2Proof.Machine

/-! ### FIXED mode -/

/-- `u` is in FIXED mode, and no status byte has been read and no cap exceeded since `s`. -/
def Unread (s u : State) : Prop :=
  u.cfg.settleMode = .fixed ∧ u.capx = s.capx ∧ u.reads = s.reads ∧ u.oracle = s.oracle

theorem Unread.emit {s u : State} (h : Unread s u) (e : Event) : Unread s (emit e u) := h

theorem Unread.settle {s u : State} (h : Unread s u) : Unread s (settle u) := by
  rw [settle_fixed h.1]
  exact h.emit _

theorem Unread.portWrite {s u : State} (h : Unread s u) (p : Port) (r v : Byte) : Unread s (portWrite p r v u) :=
  ((h.emit _).settle.emit _).settle

theorem keptPair_unread (s : State) : KeptPair fun u u' => u' = u ∧ Unread s u where
  alike := fun ⟨hu, _⟩ => hu ▸ .refl _
  portWrite := fun ⟨hu, h⟩ => ⟨congrArg _ hu, h.portWrite _ _ _⟩
  wait := fun ⟨hu, h⟩ => ⟨congrArg _ hu, h⟩
  setChan := fun ⟨hu, h⟩ => ⟨congrArg _ hu, h⟩
  setEnv := fun ⟨hu, h⟩ => ⟨congrArg _ hu, h⟩
  setVib := fun ⟨hu, h⟩ => ⟨congrArg _ hu, h⟩
  respond := fun ⟨hu, h⟩ => ⟨congrArg _ hu, h⟩
  advance := fun ⟨hu, h⟩ => ⟨congrArg _ hu, h⟩

/-- Settles O49: a settle in FIXED mode reads nothing, and a query reads the status but waits for nothing. -/
theorem fixedModeReadsStatusOnlyForQueries : Obligations.FixedModeReadsStatusOnlyForQueries := by
  intro i s t hfixed ht
  cases hi : statusQueryCommand i with
  | true =>
    obtain ⟨flag, hexec⟩ := exec_statusQueryCommand hi
    rw [hexec] at ht
    obtain rfl := finish_next ht
    exact ⟨rfl, nofun⟩
  | false =>
    obtain ⟨-, -, -, -, hcapx, hreads⟩ := exec_keeps_pair (keptPair_unread s) i hi ⟨rfl, hfixed, rfl, rfl, rfl⟩ t ht
    exact ⟨hcapx, fun _ => hreads⟩

/-! ### The bytes written do not depend on the status -/

/-- `u` and `u'` are alike, and since `s` and `s'` the same bytes have been written and the same responses given. -/
structure InStep (s s' u u' : State) : Prop where
  alike : AlikeButForStatus u u'
  wrote : ∃ evs evs', u.trace = s.trace ++ evs ∧ u'.trace = s'.trace ++ evs' ∧ busWrites evs = busWrites evs'
  answered : ∃ bs, u.out = s.out ++ bs ∧ u'.out = s'.out ++ bs

theorem InStep.of_alike {s s' : State} (h : AlikeButForStatus s s') : InStep s s' s s' :=
  ⟨h, ⟨[], [], by simp⟩, ⟨[], by simp⟩⟩

theorem AlikeButForStatus.portWrite {u u' : State} (h : AlikeButForStatus u u') (p : Port) (r v : Byte) :
    AlikeButForStatus (portWrite p r v u) (portWrite p r v u') := by
  simpa [AlikeButForStatus] using h

/-- One port write in each run writes the same two bytes (R101, R104). -/
theorem InStep.portWrite {s s' u u' : State} (h : InStep s s' u u') (p : Port) (r v : Byte) :
    InStep s s' (portWrite p r v u) (portWrite p r v u') := by
  obtain ⟨halike, ⟨evs, evs', htrace, htrace', hwrites⟩, hout⟩ := h
  obtain ⟨e, hw, -, he⟩ := afterWrites_portWrite p r v u
  obtain ⟨e', hw', -, he'⟩ := afterWrites_portWrite p r v u'
  refine ⟨halike.portWrite p r v, ⟨evs ++ e, evs' ++ e', ?_, ?_, ?_⟩, by simpa using hout⟩
  · rw [he, busAfter_trace, htrace, List.append_assoc]
  · rw [he', busAfter_trace, htrace', List.append_assoc]
  · rw [busWrites_append, busWrites_append, hwrites, hw.busWrites_eq, hw'.busWrites_eq]

theorem keptPair_inStep (s s' : State) : KeptPair (InStep s s') where
  alike h := h.alike
  portWrite h := h.portWrite _ _ _
  wait := by
    rintro d u u' ⟨halike, ⟨evs, evs', htrace, htrace', hwrites⟩, hout⟩
    exact ⟨halike, ⟨evs ++ [.swait d], evs' ++ [.swait d], by simp [emit, htrace], by simp [emit, htrace'],
      by simp [hwrites]⟩, hout⟩
  setChan := by
    rintro c x u u' ⟨⟨hcp, hstream, hch, henv, hvib, hcfg⟩, hwrote, hout⟩
    exact ⟨⟨hcp, hstream, congrArg (·.set c x) hch, henv, hvib, hcfg⟩, hwrote, hout⟩
  setEnv := by
    rintro c x u u' ⟨⟨hcp, hstream, hch, henv, hvib, hcfg⟩, hwrote, hout⟩
    exact ⟨⟨hcp, hstream, hch, congrArg (·.set c x) henv, hvib, hcfg⟩, hwrote, hout⟩
  setVib := by
    rintro c x u u' ⟨⟨hcp, hstream, hch, henv, hvib, hcfg⟩, hwrote, hout⟩
    exact ⟨⟨hcp, hstream, hch, henv, congrArg (·.set c x) hvib, hcfg⟩, hwrote, hout⟩
  respond := by
    rintro bs u u' ⟨halike, hwrote, ⟨before, hout, hout'⟩⟩
    exact ⟨halike, hwrote, before ++ bs, by simp [hout], by simp [hout']⟩
  advance := by
    rintro n u u' ⟨⟨hcp, hrest⟩, hwrote, hout⟩
    exact ⟨⟨congrArg (· + n) hcp, hrest⟩, hwrote, hout⟩

/-- A status query leaves two alike states alike. -/
theorem AlikeButForStatus.finish_statusQuery {s s' : State} (h : AlikeButForStatus s s')
    (flag : Config → Byte → Bool) :
    AlikeButForStatus (advance 1 (statusQuery flag s)) (advance 1 (statusQuery flag s')) :=
  let ⟨hcp, hrest⟩ := h
  ⟨congrArg (· + 1) hcp, hrest⟩

/-- Settles O50: a command that is no status query keeps two runs in step, and a query reads one status byte and writes
none. -/
theorem statusAnswersNeverChangeTheBytesWritten : Obligations.StatusAnswersNeverChangeTheBytesWritten := by
  intro i s s' t halike ht
  cases hi : statusQueryCommand i with
  | true =>
    obtain ⟨flag, hexec⟩ := exec_statusQueryCommand hi
    rw [hexec] at ht ⊢
    obtain rfl := finish_next ht
    refine ⟨_, rfl, halike.finish_statusQuery flag, ?_, nofun⟩
    simp [statusQuery]
  | false =>
    obtain ⟨t', ht', halike', ⟨evs, evs', htrace, htrace', hwrites⟩, ⟨bs, hout, hout'⟩⟩ :=
      exec_keeps_pair (keptPair_inStep s s') i hi (.of_alike halike) t ht
    refine ⟨t', ht', halike', ?_, fun _ => ?_⟩
    · rw [htrace, htrace', List.drop_left, List.drop_left, hwrites]
    · rw [hout, hout', List.drop_left, List.drop_left]

end Sys2Proof.Machine
end

section
/-! PROOFS. The Operator Addressing commands (spec/41_operator_addressing.md): REGOFS (R120), CHROUTE (R121) and OPMAP
(R122). -/

namespace Sys2Proof.Machine

/-- The port byte of a channel is 0 for the first three channels and 1 for the others (R121). -/
theorem portByte_route (c : Fin 6) : portByte (route c).1 = BitVec.ofNat 8 (c.val / 3) := by
  rw [route_port]
  split
  case isTrue h => rw [Nat.div_eq_of_lt h]; rfl
  case isFalse h =>
    have hdiv : c.val / 3 = 1 := by omega
    rw [hdiv]; rfl

/-! ### The answers for legal indices -/

theorem exec_regofs_fin (o : Fin 4) (s : State) : exec (.regofs o) s =
    .next { s with cp := s.cp + 2, out := s.out ++ [BitVec.ofNat 8 (regOffset o)] } := by
  rw [exec, execRegofs, withOperator_fin]
  rfl

theorem exec_chroute_fin (c : Fin 6) (s : State) : exec (.chroute c) s = .next { s with
    cp := s.cp + 2, out := s.out ++ [BitVec.ofNat 8 (c.val / 3), BitVec.ofNat 8 (c.val % 3)] } := by
  rw [exec, execChroute, withChannel_fin, portByte_route, route_local]
  rfl

theorem exec_opmap_fin (c : Fin 6) (o : Fin 4) (s : State) : exec (.opmap c o) s = .next { s with
    cp := s.cp + 3
    out := s.out ++ [BitVec.ofNat 8 (c.val / 3), BitVec.ofNat 8 (c.val % 3),
      BitVec.ofNat 8 (o.val % 2 * 8 + o.val / 2 * 4)] } := by
  rw [exec, execOpmap, withChannel_fin, withOperator_fin, portByte_route, route_local, regOffset_bits]
  rfl

/-! ### The mappings and their refusals -/

/-- Settles O4: the four offsets are `regOffset` at each operator, and the index check refuses every other index. -/
theorem regofsAndChrouteAnswerTheMapping : Obligations.RegofsAndChrouteAnswerTheMapping := by
  intro s
  refine ⟨exec_regofs_fin 0 s, exec_regofs_fin 1 s, exec_regofs_fin 2 s, exec_regofs_fin 3 s, fun op hop => ?_,
    fun c => exec_chroute_fin c s, fun ch hch => ?_⟩
  · rw [exec, execRegofs, withOperator_ge hop]
  · rw [exec, execChroute, withChannel_ge hch]

/-- Settles O5: the channel check stands outside the operator check, so it refuses first. -/
theorem opmapAnswersBothMappings : Obligations.OpmapAnswersBothMappings := by
  intro s
  refine ⟨fun c o => exec_opmap_fin c o s, fun ch op hch => ?_, fun c op hop => ?_⟩
  · rw [exec, execOpmap, withChannel_ge hch]
  · rw [exec, execOpmap, withChannel_fin, withOperator_ge hop]

end Sys2Proof.Machine
end

section
/-! PROOFS. A round of port writes followed by the record of what they wrote in one channel's shadow: the shape that SETALG,
SETPAN, SETFREQ, LOADPATCH and SETTL share (spec/42_channel_control.md), its rounds one after another, and the next state of
a command that ends so. -/

namespace Sys2Proof.Machine

/-- `t` is `s` after exactly the port writes `ws`, with the shadow of channel `c` recorded as `x`. -/
def WritesAndRecords (s : State) (ws : List (Port × Byte × Byte)) (c : Fin 6) (x : ChState) (t : State) : Prop :=
  ∃ u, AfterWrites s ws u ∧ t = setChan c x u

variable {s t v : State} {ws ws' : List (Port × Byte × Byte)} {c : Fin 6} {x y : ChState}

/-- Writes alone leave the shadow as it was. -/
theorem AfterWrites.writesAndRecords (h : AfterWrites s ws t) (c : Fin 6) : WritesAndRecords s ws c (s.chan c) t := by
  have hchan : t.chan c = s.chan c := by rw [State.chan, h.ch_eq]; rfl
  exact ⟨t, h, by rw [← hchan, setChan_self]⟩

theorem WritesAndRecords.chan_eq (h : WritesAndRecords s ws c x t) : t.chan c = x := by
  obtain ⟨u, -, rfl⟩ := h
  exact setChan_chan_self u c x

theorem WritesAndRecords.cfg_eq (h : WritesAndRecords s ws c x t) : t.cfg = s.cfg := by
  obtain ⟨u, hu, rfl⟩ := h
  exact hu.cfg_eq

/-- The last record of a channel is the one that stays. -/
theorem WritesAndRecords.setChan (h : WritesAndRecords s ws c x t) (y : ChState) :
    WritesAndRecords s ws c y (setChan c y t) := by
  obtain ⟨u, hu, rfl⟩ := h
  exact ⟨u, hu, setChan_setChan u c x y⟩

/-- The second round's writes could stand before the first round's record, which the second round overwrites. -/
theorem WritesAndRecords.trans (h : WritesAndRecords s ws c x t) (h' : WritesAndRecords t ws' c y v) :
    WritesAndRecords s (ws ++ ws') c y v := by
  obtain ⟨u, hu, rfl⟩ := h
  obtain ⟨w, hw, rfl⟩ := h'
  have hw' := hw.setChan c (u.chan c)
  rw [setChan_setChan, setChan_self] at hw'
  exact ⟨_, hu.trans hw', (setChan_setChan w c (u.chan c) y).symm⟩

/-- A command of packet length `n` that ends so, as the whole next state. -/
theorem WritesAndRecords.finish (h : WritesAndRecords s ws c x t) (n : Nat) : ∃ u, AfterWrites s ws u ∧
    finish n t = .next { u with cp := s.cp + n, ch := s.ch.set c x } := by
  obtain ⟨u, hu, rfl⟩ := h
  refine ⟨u, hu, ?_⟩
  rw [← hu.cp_eq, ← hu.ch_eq]
  rfl

/-! ### One write of a channel's register, one operator of a patch -/

theorem writesAndRecords_chanWrite (base : Byte) {b : Byte} {n : Nat} (hb : b = BitVec.ofNat 8 n) (s : State)
    (c : Fin 6) : WritesAndRecords s [chanWrite c base n] c (s.chan c) (portWrite (route c).1 (chReg base c) b s) :=
  ((afterWrites_portWrite _ _ _ s).congr_writes (by rw [chanWrite_eq c base b n hb])).writesAndRecords c

theorem WritesAndRecords.chanWrite (h : WritesAndRecords s ws c x t) (base : Byte) {b : Byte} {n : Nat}
    (hb : b = BitVec.ofNat 8 n) :
    WritesAndRecords s (ws ++ [chanWrite c base n]) c x (portWrite (route c).1 (chReg base c) b t) := by
  have hwrite := writesAndRecords_chanWrite base hb t c
  rw [h.chan_eq] at hwrite
  exact h.trans hwrite

theorem WritesAndRecords.loadOper (h : WritesAndRecords s ws c x t) (o : Fin 4) (p : PatchOp) :
    WritesAndRecords s (ws ++ patchOpWrites s.cfg c o p) c (x.setOper o (operOfPatch p))
      (loadOper c o (operOfPatch p) t) := by
  have hload : WritesAndRecords t _ c _ (Machine.loadOper c o (operOfPatch p) t) := loadOper_spec t c o p
  rw [h.cfg_eq, h.chan_eq] at hload
  exact h.trans hload

end Sys2Proof.Machine
end

section
/-! PROOFS. Channel Control (spec/42_channel_control.md): SETALG (R140), SETPAN (R143), SETFREQ (R146), KEYON (R149),
KEYOFF (R150), LOADPATCH (R153, R154), SETTL (R157), SETCARRIER (R158), and the accessors GETFREQ, GETVOL and GETPATCH (R160
to R162). -/

namespace Sys2Proof.Machine

/-! ### Masked operands as numbers -/

@[simp] theorem mask_toNat (w n : Nat) : (mask w n).toNat = n % 2 ^ w := BitVec.toNat_ofNat n w

theorem mask1_eq (n : Nat) : mask1 n = (n % 2 == 1) := by
  rw [mask1, Nat.testBit_zero]
  rfl

theorem toNat_mod_two_beq_one (n : Nat) : (n % 2 == 1).toNat = n % 2 := by
  rcases Nat.mod_two_eq_zero_or_one n with h | h <;> rw [h] <;> rfl

@[simp] theorem mask1_toNat (n : Nat) : (mask1 n).toNat = n % 2 := by rw [mask1_eq, toNat_mod_two_beq_one]

/-! ### SETALG and SETPAN -/

theorem fAlgFb_mask (alg fb : Nat) : fAlgFb (mask 3 alg) (mask 3 fb) = BitVec.ofNat 8 (fb % 8 * 8 + alg % 8) := by
  simp only [fAlgFb_arith, mask_toNat, Nat.reducePow]

theorem fPan_mask (left right ams pms : Nat) : fPan (mask1 left) (mask1 right) (mask 2 ams) (mask 3 pms) =
    BitVec.ofNat 8 (left % 2 * 128 + right % 2 * 64 + ams % 4 * 16 + pms % 8) := by
  simp only [fPan_arith, mask1_toNat, mask_toNat, Nat.reducePow]

/-- Settles O7. -/
theorem setalgWritesAndRecords : Obligations.SetalgWritesAndRecords := by
  intro alg fb s
  refine ⟨fun c => ?_, fun ch hch => by rw [exec, execSetalg, withChannel_ge hch]⟩
  simp only [exec, execSetalg, withChannel_fin, portWrite_chan]
  exact ((writesAndRecords_chanWrite _ (fAlgFb_mask alg fb) s c).setChan _).finish 4

/-- Settles O8. -/
theorem setpanWritesAndRecords : Obligations.SetpanWritesAndRecords := by
  intro left right ams pms s
  refine ⟨fun c => ?_, fun ch hch => by rw [exec, execSetpan, withChannel_ge hch]⟩
  simp only [exec, execSetpan, withChannel_fin, portWrite_chan, ← mask1_eq]
  exact ((writesAndRecords_chanWrite _ (fPan_mask left right ams pms) s c).setChan _).finish 6

/-! ### SETFREQ -/

theorem freqWrites_mask (k : Config) (c : Fin 6) (block fnum : Nat) :
    freqWrites k c (mask 3 block).toNat (mask 11 fnum).toNat =
      [chanWrite c k.regFreqHi (block % 8 * 8 + fnum / 256 % 8), chanWrite c k.regFreqLo (fnum % 256)] := by
  have hhigh : fnum % 2048 / 256 = fnum / 256 % 8 := by omega
  have hlow : fnum % 2048 % 256 = fnum % 256 := by omega
  simp only [freqWrites, mask_toNat, Nat.reducePow, hhigh, hlow]

/-- Settles O9. -/
theorem setfreqWritesHighThenLow : Obligations.SetfreqWritesHighThenLow := by
  intro block fnum s
  refine ⟨fun c => ?_, fun ch hch => by rw [exec, execSetfreq, withChannel_ge hch]⟩
  have hset : WritesAndRecords s _ c _ (setFrequency c (mask 3 block) (mask 11 fnum) s) := setFrequency_spec s c _ _
  rw [freqWrites_mask] at hset
  rw [exec, execSetfreq, withChannel_fin]
  exact hset.finish 5

/-! ### KEYON and KEYOFF -/

/-- A key byte in the arithmetic of R84, its channel field included. -/
theorem fKey_eq_ofNat (m : BitVec 4) (c : Fin 6) :
    fKey m c = BitVec.ofNat 8 (m.toNat * 16 + if c.val < 3 then c.val else c.val - 3 + 4) := by
  obtain ⟨-, -, -, hkey⟩ := registerBytesPackTheirFields
  rw [← hkey, BitVec.ofNat_toNat, BitVec.setWidth_eq]

/-- What KEYON and KEYOFF share: one write of a key byte, on port 0 for every channel (R148). -/
theorem finish_keyWrite (m : BitVec 4) (c : Fin 6) (s : State) : ∃ u,
    AfterWrites s
      [(.p0, s.cfg.regKey, BitVec.ofNat 8 (m.toNat * 16 + if c.val < 3 then c.val else c.val - 3 + 4))] u ∧
    finish 3 (portWrite keyPort s.cfg.regKey (fKey m c) s) = .next { u with cp := s.cp + 3 } := by
  have hwrite := afterWrites_portWrite keyPort s.cfg.regKey (fKey m c) s
  refine ⟨_, hwrite.congr_writes (by rw [fKey_eq_ofNat, keyPort]), ?_⟩
  rw [← hwrite.cp_eq]
  rfl

/-- Settles O10. -/
theorem keyonWritesKeyByteOnPortZero : Obligations.KeyonWritesKeyByteOnPortZero := by
  intro enable s
  refine ⟨fun c => ?_, fun ch hch => by rw [exec, execKeyon, withChannel_ge hch]⟩
  have hkey := finish_keyWrite (mask 4 enable) c s
  rw [mask_toNat] at hkey
  rwa [exec, execKeyon, withChannel_fin]

/-- Settles O11: KEYOFF's byte is KEYON's with no operator enabled. -/
theorem keyoffClearsAllFourOperators : Obligations.KeyoffClearsAllFourOperators := by
  intro enable s
  refine ⟨fun c => ?_, fun ch hch => by rw [exec, execKeyoff, withChannel_ge hch]⟩
  have hkey := finish_keyWrite 0#4 c s
  rw [BitVec.toNat_zero, Nat.zero_mul, Nat.zero_add] at hkey
  rw [exec, execKeyoff, withChannel_fin]
  exact hkey

/-! ### SETTL and SETCARRIER -/

/-- Settles O13: the channel check stands outside the operator check, so it refuses first. -/
theorem settlWritesAndRecords : Obligations.SettlWritesAndRecords := by
  intro tl s
  refine ⟨fun c o => ?_, fun ch op hch => by rw [exec, execSettl, withChannel_ge hch],
    fun c op hop => by rw [exec, execSettl, withChannel_fin, withOperator_ge hop]⟩
  have hset : WritesAndRecords s _ c _ (setTotalLevel c o (mask 7 tl) s) := setTotalLevel_spec s c o _
  rw [mask_toNat] at hset
  rw [exec, execSettl, withChannel_fin, withOperator_fin]
  exact hset.finish 4

/-- Settles O14: the checks of SETTL, and no bus access. -/
theorem setcarrierRecordsWithoutBusAccess : Obligations.SetcarrierRecordsWithoutBusAccess := by
  intro s
  refine ⟨fun c o => ?_, fun ch op hch => by rw [exec, execSetcarrier, withChannel_ge hch],
    fun c op hop => by rw [exec, execSetcarrier, withChannel_fin, withOperator_ge hop]⟩
  rw [exec, execSetcarrier, withChannel_fin, withOperator_fin]
  rfl

/-! ### LOADPATCH -/

theorem operOfPatch_eq (p : PatchOp) : operOfPatch p = patchOpShadow p := by
  rw [operOfPatch, mask1_eq]
  rfl

theorem setOper_all (x : ChState) (y0 y1 y2 y3 : OpState) :
    (((x.setOper 0 y0).setOper 1 y1).setOper 2 y2).setOper 3 y3 = { x with op := #v[y0, y1, y2, y3] } := by
  have hop : (((x.op.set 0 y0).set 1 y1).set 2 y2).set 3 y3 = #v[y0, y1, y2, y3] := by
    ext i hi
    match i, hi with
    | 0, _ | 1, _ | 2, _ | 3, _ => simp
  rw [← hop]
  rfl

/-- The pan byte of a patch without its bit 3, in the arithmetic of R154. -/
theorem panOfPatch_eq (p : Patch) : panOfPatch p = BitVec.ofNat 8 (p.pan % 256 / 16 * 16 + p.pan % 8) := by
  have hdrop : ∀ b : Byte, b &&& 0xF7 = BitVec.ofNat 8 (b.toNat / 16 * 16 + b.toNat % 8) := by decide
  have hmod : p.pan % 256 % 8 = p.pan % 8 := by omega
  simp only [panOfPatch, hdrop, mask_toNat, Nat.reducePow, hmod]

theorem panOfPatch_toNat (p : Patch) : (panOfPatch p).toNat = p.pan % 256 / 16 * 16 + p.pan % 8 :=
  toNat_of_eq_ofNat (panOfPatch_eq p) (by omega)

/-- Every bit of the pan byte but bit 3 is the patch's. -/
theorem panOfPatch_getLsbD (p : Patch) {i : Nat} (hi : i < 8) (h3 : i ≠ 3) :
    (panOfPatch p).getLsbD i = (p.pan / 2 ^ i % 2 == 1) := by
  have hkept : ∀ j < 8, j ≠ 3 → (0xF7 : Byte).getLsbD j = true := by decide
  rw [panOfPatch, BitVec.getLsbD_and, hkept i hi h3, Bool.and_true, mask, BitVec.getLsbD_ofNat, decide_eq_true hi,
    Bool.true_and, Nat.testBit_eq_decide_div_mod_eq]
  rfl

theorem panOfPatch_ams (p : Patch) : (panOfPatch p).extractLsb' 4 2 = BitVec.ofNat 2 (p.pan / 16) := by
  apply BitVec.eq_of_toNat_eq
  rw [BitVec.extractLsb'_toNat, panOfPatch_toNat, BitVec.toNat_ofNat, Nat.shiftRight_eq_div_pow]
  omega

theorem panOfPatch_pms (p : Patch) : (panOfPatch p).extractLsb' 0 3 = BitVec.ofNat 3 p.pan := by
  apply BitVec.eq_of_toNat_eq
  rw [BitVec.extractLsb'_toNat, panOfPatch_toNat, BitVec.toNat_ofNat, Nat.shiftRight_zero]
  omega

/-- Settles O12: two writes of the channel's registers and four operators, each round after the one before. -/
theorem loadpatchMakesThirtyWrites : Obligations.LoadpatchMakesThirtyWrites := by
  intro p s
  refine ⟨fun c => ⟨rfl, ?_⟩, fun ch hch => by rw [exec, execLoadpatch, withChannel_ge hch]⟩
  have hchan := (writesAndRecords_chanWrite s.cfg.regAlgFb (fAlgFb_mask p.algorithm p.feedback) s c).chanWrite
    s.cfg.regPan (panOfPatch_eq p)
  have hopers := (((hchan.loadOper 0 p.op0).loadOper 1 p.op1).loadOper 2 p.op2).loadOper 3 p.op3
  simp only [setOper_all, operOfPatch_eq] at hopers
  have hend := (hopers.setChan (patchShadow (s.chan c) p)).finish 49
  simp only [exec, execLoadpatch, withChannel_fin, operOfPatch_eq, hopers.chan_eq, panOfPatch_ams, panOfPatch_pms,
    panOfPatch_getLsbD p (i := 7) (by decide) (by decide), panOfPatch_getLsbD p (i := 6) (by decide) (by decide)]
  exact hend

/-! ### The accessors -/

theorem freqBytes_eq (block : BitVec 3) (fnum : BitVec 11) : freqBytes block fnum =
    [BitVec.ofNat 8 block.toNat, BitVec.ofNat 8 (fnum.toNat / 256), BitVec.ofNat 8 (fnum.toNat % 256)] := by
  have hhigh : (fnum >>> 8).setWidth 8 = BitVec.ofNat 8 (fnum.toNat / 256) := by
    rw [← BitVec.ofNat_toNat, BitVec.toNat_ushiftRight, Nat.shiftRight_eq_div_pow]
  have hlow : fnum.setWidth 8 = BitVec.ofNat 8 (fnum.toNat % 256) := fFreqLo_arith fnum
  rw [freqBytes, hhigh, hlow, BitVec.ofNat_toNat]

theorem bit_eq_ofNat (b : Bool) : bit b = BitVec.ofNat 8 b.toNat := by cases b <;> rfl

theorem operBytes_eq (x : OpState) : operBytes x = shadowOpBytes x := by
  simp only [operBytes, shadowOpBytes, bit_eq_ofNat, BitVec.ofNat_toNat]

theorem patchBytes_eq (x : ChState) : patchBytes x = shadowBytes x := by
  simp only [patchBytes, shadowBytes, fPan_arith, operBytes_eq, BitVec.ofNat_toNat]
  rfl

theorem exec_getpatch_fin (c : Fin 6) (s : State) :
    exec (.getpatch c) s = .next { s with cp := s.cp + 2, out := s.out ++ shadowBytes s.ch[c] } := by
  rw [exec, execGetpatch, withChannel_fin, patchBytes_eq]
  rfl

/-- Settles O15. -/
theorem accessorsAnswerTheShadow : Obligations.AccessorsAnswerTheShadow := by
  intro s
  refine ⟨fun c => ?_, fun ch hch => ?_, fun c => ?_, fun ch hch => ?_, fun c => ⟨rfl, exec_getpatch_fin c s⟩,
    fun ch hch => ?_⟩
  · rw [exec, execGetfreq, withChannel_fin, freqBytes_eq]
    rfl
  · rw [exec, execGetfreq, withChannel_ge hch]
  · rw [exec, execGetvol, withChannel_fin, ← BitVec.ofNat_toNat]
    rfl
  · rw [exec, execGetvol, withChannel_ge hch]
  · rw [exec, execGetpatch, withChannel_ge hch]

/-! ### GETPATCH after LOADPATCH -/

theorem shadowOpBytes_patchOpShadow (p : PatchOp) : shadowOpBytes (patchOpShadow p) = maskedPatchOpBytes p := by
  simp only [shadowOpBytes, patchOpShadow, maskedPatchOpBytes, BitVec.toNat_ofNat, toNat_mod_two_beq_one, Nat.reducePow]

/-- The record of a loaded patch is the patch with its unused bits cleared, whatever the shadow was before. -/
theorem shadowBytes_patchShadow (x : ChState) (p : Patch) : shadowBytes (patchShadow x p) = maskedPatchBytes p := by
  have hpan : p.pan / 128 % 2 * 128 + p.pan / 64 % 2 * 64 + p.pan / 16 % 4 * 16 + p.pan % 8 =
      p.pan % 256 / 16 * 16 + p.pan % 8 := by omega
  simp only [shadowBytes, patchShadow, maskedPatchBytes, BitVec.toNat_ofNat, toNat_mod_two_beq_one, Nat.reducePow, hpan,
    ← shadowOpBytes_patchOpShadow]
  rfl

theorem execAll_cons_of_next {i : Instr} {s t : State} (h : exec i s = .next t) (is : List Instr) :
    execAll (i :: is) s = execAll is t := by
  simp only [execAll, h]

/-- Settles O16: GETPATCH answers the shadow LOADPATCH recorded. -/
theorem getpatchAfterLoadpatchReturnsMaskedPatch : Obligations.GetpatchAfterLoadpatchReturnsMaskedPatch := by
  intro c p s
  obtain ⟨hloadpatch, -⟩ := loadpatchMakesThirtyWrites p s
  obtain ⟨-, u, hu, hload⟩ := hloadpatch c
  refine ⟨_, (execAll_cons_of_next hload _).trans (execAll_cons_of_next (exec_getpatch_fin c _) []), ?_⟩
  simp [hu.out_eq, shadowBytes_patchShadow]

end Sys2Proof.Machine
end

section
/-! PROOFS. Two states with the same parameters and the same bus side have the same bus side after the same port writes,
whatever their tables, their `cp` and their responses (spec/40_port_driver.md R101, R102). -/

namespace Sys2Proof.Machine

section
variable {s t : State}

theorem SameBus.refl (s : State) : SameBus s s := ⟨rfl, rfl, rfl, rfl⟩

theorem SameBus.emit (h : SameBus s t) (e : Event) : SameBus (emit e s) (emit e t) := by
  obtain ⟨htrace, hrest⟩ := h
  exact ⟨congrArg (· ++ [e]) htrace, hrest⟩

theorem SameBus.capExceeded (h : SameBus s t) : SameBus (capExceeded s) (capExceeded t) := by
  obtain ⟨htrace, horacle, hreads, hcapx⟩ := h
  exact ⟨congrArg (· ++ [Event.capx]) htrace, horacle, hreads, congrArg satIncr hcapx⟩

theorem SameBus.nextStatus_eq (h : SameBus s t) : nextStatus t = nextStatus s := by
  obtain ⟨-, horacle, hreads, -⟩ := h
  simp only [nextStatus, horacle, hreads]

theorem SameBus.memRead (h : SameBus s t) : SameBus (memRead s) (memRead t) := by
  have hnext := h.nextStatus_eq
  obtain ⟨htrace, horacle, hreads, hcapx⟩ := h
  simp only [SameBus, memRead_trace, memRead_oracle, memRead_reads, memRead_capx, hnext, htrace, horacle, hreads, hcapx,
    and_self]

theorem SameBus.pollSettle (h : SameBus s t) (hcfg : t.cfg = s.cfg) (n : Nat) :
    SameBus (pollSettle n s) (pollSettle n t) := by
  induction n generalizing s t with
  | zero => exact h.capExceeded
  | succ n ih =>
    simp only [Machine.pollSettle, hcfg, h.nextStatus_eq]
    split
    · exact ih h.memRead hcfg
    · exact h.memRead

/-- How a settle goes depends on the parameters and on the bus side of the state alone (R102). -/
theorem SameBus.settle (h : SameBus s t) (hcfg : t.cfg = s.cfg) : SameBus (settle s) (settle t) := by
  simp only [Machine.settle, hcfg]
  split
  · exact h.emit _
  · exact h.pollSettle hcfg _

@[simp] theorem settle_cfg (s : State) : (settle s).cfg = s.cfg := by
  obtain ⟨evs, -, -, h⟩ := settle_spec s
  rw [h, busAfter_cfg]

theorem SameBus.portWrite (h : SameBus s t) (hcfg : t.cfg = s.cfg) (p : Port) (r v : Byte) :
    SameBus (portWrite p r v s) (portWrite p r v t) :=
  (((h.emit _).settle hcfg).emit _).settle (by simp [hcfg])

theorem SameBus.setTotalLevel (h : SameBus s t) (hcfg : t.cfg = s.cfg) (c : Fin 6) (o : Fin 4) (level : BitVec 7) :
    SameBus (setTotalLevel c o level s) (setTotalLevel c o level t) := by
  have hwrite := h.portWrite hcfg (route c).1 (opReg s.cfg.regTl c o) (fTl level)
  rw [Machine.setTotalLevel, Machine.setTotalLevel, hcfg]
  exact hwrite

end

end Sys2Proof.Machine
end

section
/-! PROOFS. The Software Envelope Engine (spec/43_envelope.md): ENVATTACK (R181), ENVRELEASE (R182), ENVTICK (R183, R184),
ENVRESET (R188) and ENVUPD (R189). -/

namespace Sys2Proof.Machine

/-! ### ENVATTACK, ENVRELEASE and ENVRESET -/

/-- Settles O17: the channel check stands outside the speed check, so it refuses first. -/
theorem envattackSetsTheRamp : Obligations.EnvattackSetsTheRamp := by
  intro target speed s
  refine ⟨fun c hpos hwidth => exec_envattack c target ⟨hpos, hwidth⟩,
    fun ch hch => by rw [exec, execEnvattack, withChannel_ge hch], fun c hspeed => ?_⟩
  rw [exec, execEnvattack, withChannel_fin, withEnvSpeed_illegal (by omega)]

/-- Settles O18: the checks of ENVATTACK; the counter is not written. -/
theorem envreleaseKeepsTheCounter : Obligations.EnvreleaseKeepsTheCounter := by
  intro speed s
  refine ⟨fun c hpos hwidth => exec_envrelease c ⟨hpos, hwidth⟩,
    fun ch hch => by rw [exec, execEnvrelease, withChannel_ge hch], fun c hspeed => ?_⟩
  rw [exec, execEnvrelease, withChannel_fin, withEnvSpeed_illegal (by omega)]

/-- Settles O20. -/
theorem envresetRestoresTheEnvelope : Obligations.EnvresetRestoresTheEnvelope := by
  intro s
  refine ⟨fun c => ?_, fun ch hch => by rw [exec, execEnvreset, withChannel_ge hch]⟩
  rw [exec, execEnvreset, withChannel_fin]
  rfl

/-! ### ENVTICK -/

/-- Settles O19. -/
theorem envtickAdvancesOneFrame : Obligations.EnvtickAdvancesOneFrame := by
  intro s
  exact ⟨fun c => ⟨_, _, tickEnv_spec (s.envOf c), exec_envtick c⟩,
    fun ch hch => by rw [exec, execEnvtick, withChannel_ge hch]⟩

/-! ### ENVUPD -/

theorem exec_envupd (c : Fin 6) (s : State) :
    exec (.envupd c) s = .next (advance 2 (respond [boolByte (envChanged c s)] (envUpdate c s))) := by
  rw [exec, execEnvupd, withChannel_fin, finish]

/-- Settles O21: `envUpdate_spec` names the state after the writes, which are made exactly when the tick changed the
volume. -/
theorem envupdTicksAndWritesTheCarrier : Obligations.EnvupdTicksAndWritesTheCarrier := by
  intro s
  refine ⟨fun c => ?_, fun ch hch => by rw [exec, execEnvupd, withChannel_ge hch]⟩
  obtain ⟨u, hu, hupdate⟩ := envUpdate_spec s c
  refine ⟨_, _, u, tickEnv_spec (s.envOf c), hu, ?_⟩
  obtain ⟨evs, -, -, rfl⟩ := hu
  rw [exec_envupd, hupdate, envChanged]
  cases (tickEnv (s.envOf c)).2 <;> rfl

/-! ### ENVUPD against ENVTICK and SETTL -/

theorem setTotalLevel_ch (c : Fin 6) (o : Fin 4) (level : BitVec 7) (s : State) :
    (setTotalLevel c o level s).ch =
      s.ch.set c ((s.chan c).setOper o { (s.chan c).oper o with totalLevel := level }) := by
  simp [setTotalLevel]

theorem exec_settl_fin (c : Fin 6) (o : Fin 4) (level : BitVec 7) (s : State) :
    exec (.settl c o level.toNat) s = .next (advance 4 (setTotalLevel c o level s)) := by
  rw [exec, execSettl, withChannel_fin, withOperator_fin, mask, BitVec.ofNat_toNat, BitVec.setWidth_eq, finish]

theorem envUpdate_of_unchanged {c : Fin 6} {s : State} (h : envChanged c s = false) : envUpdate c s = envTick c s := by
  simp [envUpdate, h]

theorem envUpdate_of_changed {c : Fin 6} {s : State} (h : envChanged c s = true) : envUpdate c s =
    setTotalLevel c (s.chan c).carrier ((envTick c s).envOf c).current (envTick c s) := by
  simp [envUpdate, h, envTick]

/-- Settles O22: SETTL of the carrier makes ENVUPD's port write, from a state with the parameters, the tables and the bus
side of ENVUPD's own state after its tick. -/
theorem envupdIsEnvtickThenSettl : Obligations.EnvupdIsEnvtickThenSettl := by
  intro c s
  have hupd := exec_envupd c s
  have htick := exec_envtick (s := s) c
  cases hchanged : envChanged c s with
  | false =>
    rw [envUpdate_of_unchanged hchanged, hchanged] at hupd
    rw [hchanged] at htick
    have hanswer : (advance 2 (respond [boolByte false] (envTick c s))).out ≠ s.out ++ [1] := by
      simp [boolByte, envTick]
    exact ⟨_, _, _, hupd, htick, rfl, congrArg (execAll · _) (if_neg hanswer), rfl, rfl, rfl, rfl, .refl _⟩
  | true =>
    rw [envUpdate_of_changed hchanged, hchanged] at hupd
    rw [hchanged] at htick
    have hanswer : (advance 2 (respond [boolByte true] (envTick c s))).out = s.out ++ [1] := rfl
    have hsettl := exec_settl_fin c (s.chan c).carrier ((envTick c s).envOf c).current
      (advance 2 (respond [boolByte true] (envTick c s)))
    have hbus : SameBus (envTick c s) (advance 2 (respond [boolByte true] (envTick c s))) := .refl (envTick c s)
    refine ⟨_, _, _, hupd, htick, by simp, (congrArg (execAll · _) (if_pos hanswer)).trans
      (execAll_cons_of_next hsettl []), ?_, ?_, ?_, ?_, hbus.setTotalLevel rfl c _ _⟩
    · simp only [advance_ch, respond_ch, setTotalLevel_ch, advance_chan, respond_chan]
    · simp only [advance_env, respond_env, setTotalLevel_env]
    · simp only [advance_vib, respond_vib, setTotalLevel_vib]
    · simp only [advance_cfg, respond_cfg, setTotalLevel_cfg]

end Sys2Proof.Machine
end

section
/-! PROOFS. The duration of a ramp (spec/43_envelope.md R187 (b)): what an envelope is after each tick of it, one case per
way a tick can go (R184). -/

namespace Sys2Proof.Machine

/-! ### The three ways a tick can go (R184) -/

theorem tickEnv_counts {e : EnvState} (hon : e.active = true) (h : e.counter + 1 < e.speed) :
    tickEnv e = ({ e with counter := e.counter + 1 }, false) := by
  rw [tickEnv, if_pos hon, if_neg (Nat.not_le.mpr h)]

theorem tickEnv_steps {e : EnvState} (hon : e.active = true) (h : e.speed ≤ e.counter + 1) :
    tickEnv e = ({ e with
      counter := 0, current := stepToward e.current e.target, active := stepToward e.current e.target != e.target },
      stepToward e.current e.target != e.current) := by
  rw [tickEnv, if_pos hon, if_pos h]

/-! ### The distance of a ramp -/

/-- How many one-unit steps lie between two volumes (R187's `d`). -/
def volumeDistance (v target : BitVec 7) : Nat := v.toNat - target.toNat + (target.toNat - v.toNat)

theorem volumeDistance_eq_zero_iff {v target : BitVec 7} : volumeDistance v target = 0 ↔ v = target := by
  rw [volumeDistance, ← BitVec.toNat_inj]
  omega

theorem volumeDistance_stepToward (v target : BitVec 7) :
    volumeDistance (stepToward v target) target = volumeDistance v target - 1 := by
  simp only [volumeDistance, stepToward_toNat]
  split
  · omega
  · split <;> omega

theorem stepToward_eq_self_iff {v target : BitVec 7} : stepToward v target = v ↔ volumeDistance v target = 0 := by
  rw [← BitVec.toNat_inj, stepToward_toNat, volumeDistance]
  split
  · omega
  · split <;> omega

/-! ### Counting frames up to the speed -/

theorem add_one_mod_of_ne_zero {k n : Nat} (h : (k + 1) % n ≠ 0) : (k + 1) % n = k % n + 1 := by
  have hk := Nat.div_add_mod k n
  have hk' := Nat.div_add_mod (k + 1) n
  rw [Nat.succ_div_of_mod_ne_zero h] at hk'
  omega

theorem le_mod_add_one_of_eq_zero {k n : Nat} (h : (k + 1) % n = 0) : n ≤ k % n + 1 := by
  have hk := Nat.div_add_mod k n
  have hk' := Nat.div_add_mod (k + 1) n
  rw [Nat.succ_div_of_mod_eq_zero h, h, Nat.mul_add_one] at hk'
  omega

/-! ### A ramp tick by tick (R187 (b)) -/

/-- The envelope after `k` ticks of a ramp over the distance `d` at a speed of `n`: every `n` ticks bring it one unit
closer, and it is active until `max d 1` steps are made: a ramp over no distance takes one step, which changes no volume
(R185). -/
structure OnRamp (target : BitVec 7) (n d k : Nat) (e : EnvState) : Prop where
  target_eq : e.target = target
  speed_eq : e.speed = n
  distance_eq : volumeDistance e.current target = d - k / n
  running : k / n < max d 1 → e.active = true ∧ e.counter = k % n
  ended : max d 1 ≤ k / n → e.active = false

/-- Whether the tick numbered `k + 1` of a ramp changes the volume (R187 (b)). -/
def rampChanges (n d k : Nat) : Bool := (k + 1) % n = 0 ∧ (k + 1) / n ≤ d

section
variable {target : BitVec 7} {n d k : Nat} {e : EnvState}

theorem OnRamp.active_eq_false_iff (h : OnRamp target n d k e) : e.active = false ↔ max d 1 ≤ k / n := by
  refine ⟨fun hoff => Nat.not_lt.mp fun hrun => ?_, h.ended⟩
  rw [(h.running hrun).1] at hoff
  cases hoff

theorem OnRamp.tick_ended (h : OnRamp target n d k e) (hover : max d 1 ≤ k / n) :
    OnRamp target n d (k + 1) (tickEnv e).1 ∧ (tickEnv e).2 = rampChanges n d k := by
  have hdiv : k / n ≤ (k + 1) / n := Nat.div_le_div_right k.le_succ
  rw [tickEnv_inactive (h.ended hover)]
  refine ⟨⟨h.target_eq, h.speed_eq, ?_, fun hrun => ?_, fun _ => h.ended hover⟩, ?_⟩
  · have hdist := h.distance_eq
    dsimp only
    omega
  · omega
  · refine (decide_eq_false fun ⟨hmod, hle⟩ => ?_).symm
    rw [Nat.succ_div_of_mod_eq_zero hmod] at hle
    omega

theorem OnRamp.tick_counts (hn : 1 ≤ n) (h : OnRamp target n d k e) (hrun : k / n < max d 1)
    (hmod : (k + 1) % n ≠ 0) :
    OnRamp target n d (k + 1) (tickEnv e).1 ∧ (tickEnv e).2 = rampChanges n d k := by
  obtain ⟨hon, hcounter⟩ := h.running hrun
  have hdiv := Nat.succ_div_of_mod_ne_zero hmod
  have hcount := add_one_mod_of_ne_zero hmod
  have hlt := Nat.mod_lt (k + 1) hn
  rw [tickEnv_counts hon (by rw [h.speed_eq]; omega)]
  refine ⟨⟨h.target_eq, h.speed_eq, by rw [hdiv]; exact h.distance_eq, fun _ => ⟨hon, ?_⟩, fun hover => ?_⟩, ?_⟩
  · rw [hcount, ← hcounter]
  · omega
  · exact (decide_eq_false fun hchange => hmod hchange.1).symm

theorem OnRamp.tick_steps (h : OnRamp target n d k e) (hrun : k / n < max d 1) (hmod : (k + 1) % n = 0) :
    OnRamp target n d (k + 1) (tickEnv e).1 ∧ (tickEnv e).2 = rampChanges n d k := by
  obtain ⟨hon, hcounter⟩ := h.running hrun
  obtain ⟨rfl, hspeed, hdist, -, -⟩ := h
  have hdiv := Nat.succ_div_of_mod_eq_zero hmod
  have hcount := le_mod_add_one_of_eq_zero hmod
  have hnext := volumeDistance_stepToward e.current e.target
  rw [tickEnv_steps hon (by omega)]
  refine ⟨⟨rfl, hspeed, by dsimp only; omega, fun hmore => ⟨?_, hmod.symm⟩, fun hover => ?_⟩, ?_⟩
  · -- `omega` takes the quotient by a variable for any integer.
    have hnonneg := Nat.zero_le (k / n)
    rw [bne_iff_ne, Ne, ← volumeDistance_eq_zero_iff]
    omega
  · rw [bne_eq_false_iff_eq, ← volumeDistance_eq_zero_iff]
    omega
  · rw [Bool.eq_iff_iff, bne_iff_ne, Ne, stepToward_eq_self_iff, rampChanges, decide_eq_true_iff]
    omega

theorem OnRamp.tick (hn : 1 ≤ n) (h : OnRamp target n d k e) :
    OnRamp target n d (k + 1) (tickEnv e).1 ∧ (tickEnv e).2 = rampChanges n d k := by
  rcases lt_or_ge (k / n) (max d 1) with hrun | hover
  · by_cases hmod : (k + 1) % n = 0
    · exact h.tick_steps hrun hmod
    · exact h.tick_counts hn hrun hmod
  · exact h.tick_ended hover

theorem onRamp_zero (v : BitVec 7) :
    OnRamp target n (volumeDistance v target) 0
      { current := v, target := target, speed := n, counter := 0, active := true } where
  target_eq := rfl
  speed_eq := rfl
  distance_eq := by simp
  running _ := ⟨rfl, (Nat.zero_mod n).symm⟩
  ended h := by simp at h

/-- ENVATTACK puts the envelope on the ramp from its current volume to the masked target. -/
theorem exec_envattack_onRamp (c : Fin 6) (target : Nat) {s : State} (h : 1 ≤ n ∧ n < 2 ^ s.cfg.envSpeedWidth) :
    ∃ u, exec (.envattack c target n) s = .next u ∧
      OnRamp (mask 7 target) n (volumeDistance (s.envOf c).current (mask 7 target)) 0 (u.envOf c) ∧ u.out = s.out :=
  ⟨_, exec_envattack c target h, by simpa using onRamp_zero (s.envOf c).current, rfl⟩

/-- ENVTICKs of a channel on a ramp, from the tick numbered `k + 1` on. -/
theorem OnRamp.execAll_envtick (hn : 1 ≤ n) (c : Fin 6) (m : Nat) {s : State} (h : OnRamp target n d k (s.envOf c)) :
    ∃ t, execAll (List.replicate m (.envtick c)) s = .next t ∧ OnRamp target n d (k + m) (t.envOf c) ∧
      t.out = s.out ++ (List.range' k m).map (boolByte ∘ rampChanges n d) := by
  induction m generalizing k s with
  | zero => exact ⟨s, rfl, h, (List.append_nil _).symm⟩
  | succ m ih =>
    obtain ⟨hramp, hchanged⟩ := h.tick hn
    obtain ⟨t, ht, hend, hout⟩ := ih (s := advance 2 (respond [boolByte (envChanged c s)] (envTick c s)))
      (k := k + 1) (by simpa [envTick] using hramp)
    refine ⟨t, (execAll_cons_of_next (exec_envtick c) _).trans ht, by rwa [Nat.add_right_comm] at hend, ?_⟩
    rw [hout, advance_out, respond_out, envChanged, hchanged, List.append_assoc]
    rfl

end

/-- Settles O23: ENVATTACK puts the envelope on a ramp, and every ENVTICK takes it one tick further. -/
theorem envelopeRampTakesDistanceTimesSpeedTicks : Obligations.EnvelopeRampTakesDistanceTimesSpeedTicks := by
  intro c target speed k s hpos hwidth d
  have hd : volumeDistance (s.envOf c).current (mask 7 target) = d := by
    simp only [d, volumeDistance, mask_toNat, Nat.reducePow]
  obtain ⟨u, hattack, hstart, hquiet⟩ := exec_envattack_onRamp c target ⟨hpos, hwidth⟩
  obtain ⟨t, ht, hramp, hout⟩ := hstart.execAll_envtick hpos c k
  rw [hd, Nat.zero_add] at hramp
  refine ⟨t, (execAll_cons_of_next hattack _).trans ht, ?_, ?_, fun hover => ?_⟩
  · rw [hout, hquiet, hd, List.range_eq_range']
    simp [rampChanges, boolByte]
  · rw [hramp.active_eq_false_iff, Nat.le_div_iff_mul_le hpos]
  · have hdist := hramp.distance_eq
    rw [← Nat.le_div_iff_mul_le hpos] at hover
    have hzero : volumeDistance (t.envOf c).current (mask 7 target) = 0 := by omega
    rw [volumeDistance_eq_zero_iff.mp hzero]
    exact mask_toNat 7 target

end Sys2Proof.Machine
end

section
/-! PROOFS. Two states with the same parameters and the same bus side have the same bus side after the same frequency is
written (spec/42_channel_control.md R146). -/

namespace Sys2Proof.Machine

theorem SameBus.setFrequency {s t : State} (h : SameBus s t) (hcfg : t.cfg = s.cfg) (c : Fin 6) (block : BitVec 3)
    (fnum : BitVec 11) : SameBus (setFrequency c block fnum s) (setFrequency c block fnum t) := by
  have hwrites := (h.portWrite hcfg (route c).1 (chReg s.cfg.regFreqHi c) (fFreqHi block fnum)).portWrite
    (by simp only [portWrite_cfg, hcfg]) (route c).1 (chReg s.cfg.regFreqLo c) (fFreqLo fnum)
  rw [Machine.setFrequency, Machine.setFrequency, hcfg]
  exact hwrites

theorem setFrequency_ch (c : Fin 6) (block : BitVec 3) (fnum : BitVec 11) (s : State) :
    (setFrequency c block fnum s).ch = s.ch.set c { s.chan c with block := block, fnum := fnum } := by
  simp [setFrequency]

theorem exec_setfreq_fin (c : Fin 6) (block : BitVec 3) (fnum : BitVec 11) (s : State) :
    exec (.setfreq c block.toNat fnum.toNat) s = .next (advance 5 (setFrequency c block fnum s)) := by
  simp only [exec, execSetfreq, withChannel_fin, mask, BitVec.ofNat_toNat, BitVec.setWidth_eq, finish]

end Sys2Proof.Machine
end

section
/-! PROOFS. The vibrato (spec/44_vibrato_pitchbend.md): VIBSET (R200), VIBCLR (R201), VIBTICK (R202, R203) and VIBUPD
(R208). -/

namespace Sys2Proof.Machine

/-! ### VIBSET and VIBCLR -/

/-- Settles O25: the channel check stands outside the speed check, so it refuses first. -/
theorem vibsetAndVibclrReplaceTheVibrato : Obligations.VibsetAndVibclrReplaceTheVibrato := by
  intro block fnum depth speed s
  refine ⟨fun c hpos hmax => ?_, fun ch hch => by rw [exec, execVibset, withChannel_ge hch], fun c hspeed => ?_,
    fun c => ?_, fun ch hch => by rw [exec, execVibclr, withChannel_ge hch]⟩
  · rw [exec, execVibset, withChannel_fin, withVibSpeed_legal ⟨hpos, hmax⟩]
    rfl
  · rw [exec, execVibset, withChannel_fin, withVibSpeed_illegal (by omega)]
  · rw [exec, execVibclr, withChannel_fin]
    rfl

/-! ### VIBTICK -/

theorem nextPhase_eq_ofNat_mod (v : VibState) :
    nextPhase v = BitVec.ofNat 6 ((v.phase.toNat + v.speed.toNat) % 64) := by
  rw [nextPhase_eq, ← BitVec.toNat_inj, BitVec.toNat_ofNat, BitVec.toNat_ofNat, Nat.mod_mod]

theorem exec_vibtick {c : Fin 6} {s : State} (h : (s.vibOf c).present = true) : exec (.vibtick c) s =
    .next (advance 2 (respond (freqBytes (s.vibOf c).baseBlock (vibFnum c s)) (vibTick c s))) := by
  rw [exec, execVibtick, withChannel_fin, withVibrato_present h, finish]

/-- Settles O26: the F-number answered is `vibFnum`. -/
theorem vibtickAdvancesThePhase : Obligations.VibtickAdvancesThePhase := by
  intro s
  refine ⟨fun c hpresent => ⟨vibFnum c s, vibFnum_toNat s c, ?_⟩, fun c habsent => ?_,
    fun ch hch => by rw [exec, execVibtick, withChannel_ge hch]⟩
  · rw [exec_vibtick hpresent, freqBytes_eq, vibTick, nextPhase_eq_ofNat_mod]
    rfl
  · rw [exec, execVibtick, withChannel_fin, withVibrato_absent habsent]

/-! ### VIBUPD -/

theorem exec_vibupd {c : Fin 6} {s : State} (h : (s.vibOf c).present = true) : exec (.vibupd c) s =
    .next (advance 2 (respond (freqBytes (s.vibOf c).baseBlock (vibFnum c s)) (vibUpdate c s))) := by
  rw [exec, execVibupd, withChannel_fin, withVibrato_present h, finish]

/-- Settles O27: `vibUpdate_spec` names the state after the two writes. -/
theorem vibupdTicksAndWritesTheFrequency : Obligations.VibupdTicksAndWritesTheFrequency := by
  intro s
  refine ⟨fun c hpresent => ?_, fun c habsent => ?_, fun ch hch => by rw [exec, execVibupd, withChannel_ge hch]⟩
  · obtain ⟨u, hu, hupdate⟩ := vibUpdate_spec s c
    refine ⟨vibFnum c s, u, vibFnum_toNat s c, hu, ?_⟩
    obtain ⟨evs, -, -, rfl⟩ := hu
    rw [exec_vibupd hpresent, hupdate, freqBytes_eq, nextPhase_eq_ofNat_mod]
    rfl
  · rw [exec, execVibupd, withChannel_fin, withVibrato_absent habsent]

/-! ### VIBUPD against VIBTICK and SETFREQ -/

/-- The three bytes of a frequency give its block and its F-number back (R75). -/
theorem exists_freqBytes (block : BitVec 3) (fnum : BitVec 11) : ∃ b hi lo : Byte,
    freqBytes block fnum = [b, hi, lo] ∧ b.toNat = block.toNat ∧ hi.toNat * 256 + lo.toNat = fnum.toNat := by
  refine ⟨_, _, _, freqBytes_eq block fnum, ?_, ?_⟩ <;> simp only [BitVec.toNat_ofNat] <;> omega

/-- Settles O28: SETFREQ of the answer makes VIBUPD's port writes, from a state with the parameters, the tables and the
bus side of VIBUPD's own state after its tick. -/
theorem vibupdIsVibtickThenSetfreq : Obligations.VibupdIsVibtickThenSetfreq := by
  intro c s hpresent
  obtain ⟨b, hi, lo, hbytes, hblock, hfnum⟩ := exists_freqBytes (s.vibOf c).baseBlock (vibFnum c s)
  have hupd := exec_vibupd hpresent
  have htick := exec_vibtick hpresent
  have hsetfreq := exec_setfreq_fin c (s.vibOf c).baseBlock (vibFnum c s)
    (advance 2 (respond [b, hi, lo] (vibTick c s)))
  rw [hbytes] at hupd htick
  rw [← hblock, ← hfnum] at hsetfreq
  have hbus : SameBus (vibTick c s) (advance 2 (respond [b, hi, lo] (vibTick c s))) := .refl (vibTick c s)
  refine ⟨_, _, _, b, hi, lo, hupd, htick, rfl, hsetfreq, ?_, ?_, ?_, ?_, ?_, hbus.setFrequency rfl c _ _⟩
  · simp only [advance_ch, respond_ch, vibUpdate, setFrequency_ch, advance_chan, respond_chan]
  · simp only [advance_env, respond_env, vibUpdate, setFrequency_env]
  · simp only [advance_vib, respond_vib, vibUpdate, setFrequency_vib]
  · simp only [advance_out, respond_out, vibUpdate, setFrequency_out]
  · simp only [advance_cfg, respond_cfg, vibUpdate, setFrequency_cfg]

end Sys2Proof.Machine
end

section
/-! PROOFS. The laws of the vibrato (spec/44_vibrato_pitchbend.md): the period of its phase (R207) and the excursion of
the triangle (R204). -/

namespace Sys2Proof.Machine

/-! ### Ticks one after another -/

/-- A vibrato after `k` ticks (R203): only its phase has moved. -/
def ticked (v : VibState) (k : Nat) : VibState :=
  { v with phase := BitVec.ofNat 6 (v.phase.toNat + k * v.speed.toNat) }

theorem ticked_zero (v : VibState) : ticked v 0 = v := by
  rw [ticked, Nat.zero_mul, Nat.add_zero, BitVec.ofNat_toNat, BitVec.setWidth_eq]

theorem ticked_one (v : VibState) : ticked v 1 = { v with phase := nextPhase v } := by
  rw [ticked, Nat.one_mul, nextPhase_eq]

theorem ticked_ticked (v : VibState) (j k : Nat) : ticked (ticked v j) k = ticked v (j + k) := by
  have hphase : BitVec.ofNat 6 ((ticked v j).phase.toNat + k * v.speed.toNat) =
      BitVec.ofNat 6 (v.phase.toNat + (j + k) * v.speed.toNat) := by
    rw [← BitVec.toNat_inj, ticked, BitVec.toNat_ofNat, BitVec.toNat_ofNat, BitVec.toNat_ofNat, Nat.mod_add_mod,
      Nat.add_assoc, Nat.add_mul]
  exact congrArg (fun p => { v with phase := p }) hphase

/-- VIBTICKs of a channel with a vibrato run to their ends. -/
theorem execAll_vibtick (c : Fin 6) (k : Nat) {s : State} (h : (s.vibOf c).present = true) :
    ∃ t, execAll (List.replicate k (.vibtick c)) s = .next t ∧ t.vibOf c = ticked (s.vibOf c) k := by
  induction k generalizing s with
  | zero => exact ⟨s, rfl, (ticked_zero _).symm⟩
  | succ k ih =>
    have hnext : (advance 2 (respond (freqBytes (s.vibOf c).baseBlock (vibFnum c s)) (vibTick c s))).vibOf c =
        ticked (s.vibOf c) 1 := by simp [ticked_one]
    obtain ⟨t, ht, hphase⟩ := ih (by rw [hnext]; exact h)
    refine ⟨t, (execAll_cons_of_next (exec_vibtick h) _).trans ht, ?_⟩
    rw [hphase, hnext, ticked_ticked, Nat.add_comm]

/-! ### The period of the phase (R207) -/

theorem ticked_phase_eq_iff (v : VibState) (k : Nat) : (ticked v k).phase = v.phase ↔ 64 ∣ v.speed.toNat * k := by
  have hphase := v.phase.isLt
  rw [← BitVec.toNat_inj, ticked, BitVec.toNat_ofNat, Nat.mul_comm]
  omega

theorem div_gcd_dvd_iff {n : Nat} (hn : 0 < n) (m k : Nat) : n / Nat.gcd m n ∣ k ↔ n ∣ m * k := by
  rw [Nat.div_dvd_iff_dvd_mul (Nat.gcd_dvd_right m n) (Nat.gcd_pos_of_pos_right m hn), Nat.gcd_comm,
    Nat.dvd_gcd_mul_iff_dvd_mul]

/-- Settles O29: `k` ticks move the phase by `k * speed` modulo 64. The law holds for an illegal speed too. -/
theorem vibratoPhaseReturnsAfterItsPeriod : Obligations.VibratoPhaseReturnsAfterItsPeriod := by
  intro c k s hpresent _ _
  obtain ⟨t, ht, hticked⟩ := execAll_vibtick c k hpresent
  exact ⟨t, ht, by rw [hticked, ticked_phase_eq_iff, div_gcd_dvd_iff (by decide)]⟩

/-! ### The triangle (R204) -/

/-- Scaling a magnitude and giving it its sign back, for a magnitude that is the number itself. -/
theorem sign_mul_scaled (m d : Nat) :
    (m : Int).sign * (((m : Int).natAbs * d / 16 : Nat) : Int) = (m * d / 16 : Nat) := by
  rcases Nat.eq_zero_or_pos m with rfl | hpos
  · simp
  · rw [Int.sign_natCast_of_ne_zero hpos.ne', Int.natAbs_natCast, Int.one_mul]

theorem sign_mul_scaled_neg (m d : Nat) :
    (-(m : Int)).sign * (((-(m : Int)).natAbs * d / 16 : Nat) : Int) = -((m * d / 16 : Nat) : Int) := by
  rw [Int.sign_neg, Int.natAbs_neg, Int.neg_mul, sign_mul_scaled]

theorem clipFnum_add (b : BitVec 11) (m : Nat) : (clipFnum b m).toNat = min 2047 (b.toNat + m) := by
  have hclip := clipFnum_toNat b m
  omega

theorem clipFnum_sub (b : BitVec 11) (m : Nat) : (clipFnum b (-(m : Int))).toNat = b.toNat - m := by
  have hclip := clipFnum_toNat b (-m)
  have hb := b.isLt
  omega

/-- The F-number of a triangle vibrato, quarter by quarter of its period. -/
theorem clipFnum_vibOffsetTri (b : BitVec 11) (p : BitVec 6) (d : BitVec 4) : (clipFnum b (vibOffsetTri p d)).toNat =
    if p.toNat ≤ 16 then min 2047 (b.toNat + p.toNat * d.toNat / 16)
    else if p.toNat ≤ 32 then min 2047 (b.toNat + (32 - p.toNat) * d.toNat / 16)
    else if p.toNat ≤ 48 then b.toNat - (p.toNat - 32) * d.toNat / 16
    else b.toNat - (64 - p.toNat) * d.toNat / 16 := by
  have hp := p.isLt
  split_ifs with hrise hfall hsink
  · have htri : triangle p = (p.toNat : Int) := by rw [triangle, if_pos hrise]
    rw [vibOffsetTri, htri, sign_mul_scaled, clipFnum_add]
  · have htri : triangle p = ((32 - p.toNat : Nat) : Int) := by
      rw [triangle, if_neg hrise, if_pos (by omega)]
      omega
    rw [vibOffsetTri, htri, sign_mul_scaled, clipFnum_add]
  · have htri : triangle p = -((p.toNat - 32 : Nat) : Int) := by
      rw [triangle, if_neg hrise, if_pos hsink]
      omega
    rw [vibOffsetTri, htri, sign_mul_scaled_neg, clipFnum_sub]
  · have htri : triangle p = -((64 - p.toNat : Nat) : Int) := by
      rw [triangle, if_neg hrise, if_neg hsink]
      omega
    rw [vibOffsetTri, htri, sign_mul_scaled_neg, clipFnum_sub]

theorem scaled_le {m : Nat} (h : m ≤ 16) (d : Nat) : m * d / 16 ≤ d :=
  Nat.div_le_of_le_mul (Nat.mul_le_mul_right d h)

/-- In each quarter the offset is a magnitude of at most the depth, added or taken away, and saturation only brings the
sum closer to the base. -/
theorem clipFnum_vibOffsetTri_within (b : BitVec 11) (p : BitVec 6) (d : BitVec 4) :
    (clipFnum b (vibOffsetTri p d)).toNat ≤ b.toNat + d.toNat ∧
      b.toNat ≤ (clipFnum b (vibOffsetTri p d)).toNat + d.toNat := by
  have hb := b.isLt
  have hp := p.isLt
  rw [clipFnum_vibOffsetTri]
  split_ifs with hrise hfall hsink
  · have hle := scaled_le hrise d.toNat
    omega
  · have hle := scaled_le (show 32 - p.toNat ≤ 16 by omega) d.toNat
    omega
  · have hle := scaled_le (show p.toNat - 32 ≤ 16 by omega) d.toNat
    omega
  · have hle := scaled_le (show 64 - p.toNat ≤ 16 by omega) d.toNat
    omega

/-- Settles O30: the F-number recorded is the base clipped with the triangle's offset at the advanced phase. -/
theorem triangleVibratoStaysWithinDepth : Obligations.TriangleVibratoStaysWithinDepth := by
  intro c s htri hpresent p base depth
  have hphase : (nextPhase (s.vibOf c)).toNat = p := by rw [nextPhase_eq, BitVec.toNat_ofNat]
  have hchan := vibUpdate_chan s c c
  rw [if_pos rfl, vibFnum, htri, vibOffset] at hchan
  have hfnum := clipFnum_vibOffsetTri (s.vibOf c).baseFnum (nextPhase (s.vibOf c)) (s.vibOf c).depth
  rw [hphase] at hfnum
  obtain ⟨hupper, hlower⟩ :=
    clipFnum_vibOffsetTri_within (s.vibOf c).baseFnum (nextPhase (s.vibOf c)) (s.vibOf c).depth
  refine ⟨_, exec_vibupd hpresent, ?_⟩
  rw [advance_chan, respond_chan, hchan]
  exact ⟨hfnum, hupper, hlower, rfl⟩

end Sys2Proof.Machine
end

section
/-! PROOFS. The pitch bend (spec/44_vibrato_pitchbend.md): PBEND (R210) and how many calls of it reach the target
(R211). -/

namespace Sys2Proof.Machine

/-! ### The next value -/

theorem bendNext_eq (c t d : Nat) : bendNext c t d = if c < t then min t (c + d) else max t (c - d) := by
  rw [bendNext]
  split_ifs <;> omega

theorem bendNext_zero (c t : Nat) : bendNext c t 0 = c := by
  rw [bendNext_eq]
  split_ifs <;> omega

/-- Two bends are one by both speeds together. -/
theorem bendNext_bendNext (c t a b : Nat) : bendNext (bendNext c t a) t b = bendNext c t (a + b) := by
  simp only [bendNext_eq]
  split_ifs <;> omega

theorem bendNext_eq_target_iff {c t d : Nat} : bendNext c t d = t ↔ c - t + (t - c) ≤ d := by
  rw [bendNext_eq]
  split_ifs <;> omega

theorem bendNext_lt {c t n : Nat} (hc : c < n) (ht : t < n) (d : Nat) : bendNext c t d < n := by
  rw [bendNext_eq]
  split_ifs <;> omega

/-- A bend that does not get as far as the target moves by the whole speed. -/
theorem bendNext_add_of_lt {c t a b : Nat} (h : a + b < c - t + (t - c)) :
    bendNext c t (a + b) = if c < t then bendNext c t a + b else bendNext c t a - b := by
  simp only [bendNext_eq]
  split_ifs <;> omega

/-! ### PBEND -/

/-- What a call of PBEND appends to the responses (R210). -/
def bendAnswer (next target : Nat) : List Byte := bendBytes next ++ [boolByte (next == target)]

theorem bendAnswer_eq (next target : Nat) : bendAnswer next target =
    [if next < 65536 then BitVec.ofNat 8 (next / 256) else Config.freeBendHigh next, BitVec.ofNat 8 (next % 256),
      if next = target then 1 else 0] := by
  have hlow : BitVec.ofNat 8 next = BitVec.ofNat 8 (next % 256) := by
    rw [← BitVec.toNat_inj, BitVec.toNat_ofNat, BitVec.toNat_ofNat, Nat.mod_mod]
  simp [bendAnswer, bendBytes, boolByte, hlow]

theorem exec_pbend (cur tgt spd : Nat) (s : State) : exec (.pbend cur tgt spd) s = .next (advance 7 (respond
    (bendAnswer (bendNext (cur % 2 ^ s.cfg.pbWidth) (tgt % 2 ^ s.cfg.pbWidth) (spd % 2 ^ s.cfg.pbWidth))
      (tgt % 2 ^ s.cfg.pbWidth)) s)) := rfl

/-- Settles O31. -/
theorem pbendMovesTowardTheTarget : Obligations.PbendMovesTowardTheTarget := by
  intro cur tgt spd s c t d next
  refine ⟨if next < 65536 then BitVec.ofNat 8 (next / 256) else Config.freeBendHigh next, fun h => if_pos h, ?_⟩
  rw [exec_pbend, bendNext_eq, bendAnswer_eq]
  rfl

/-! ### PBEND again and again (R211) -/

/-- The value after `n` calls of PBEND at a speed: as after one call at `n` times the speed. -/
def bendValue (cur tgt spd n : Nat) : Nat := bendNext cur tgt (n * spd)

/-- The state after `n` calls of PBEND from `s`, each with the value the call before answered. -/
def bendState (cur tgt spd : Nat) (s : State) : Nat → State
  | 0 => s
  | n + 1 => advance 7 (respond (bendAnswer (bendValue cur tgt spd (n + 1)) tgt) (bendState cur tgt spd s n))

section
variable {cur tgt spd n : Nat} {s : State}

theorem bendValue_zero : bendValue cur tgt spd 0 = cur := by rw [bendValue, Nat.zero_mul, bendNext_zero]

theorem bendValue_succ : bendValue cur tgt spd (n + 1) = bendNext (bendValue cur tgt spd n) tgt spd := by
  rw [bendValue, bendValue, bendNext_bendNext, Nat.add_one_mul]

/-- The calls a bend takes are its distance by its speed, rounded up (R211). -/
theorem bendValue_eq_target_iff (hpos : 1 ≤ spd) :
    bendValue cur tgt spd n = tgt ↔ (cur - tgt + (tgt - cur) + spd - 1) / spd ≤ n := by
  rw [bendValue, bendNext_eq_target_iff, ← Nat.ceilDiv_eq_add_pred_div, ceilDiv_le_iff_le_mul hpos, Nat.mul_comm]

theorem bendState_cfg : (bendState cur tgt spd s n).cfg = s.cfg := by
  induction n with
  | zero => rfl
  | succ n ih => exact ih

theorem exec_pbend_bendState (hcur : cur < 2 ^ s.cfg.pbWidth) (htgt : tgt < 2 ^ s.cfg.pbWidth)
    (hspd : spd < 2 ^ s.cfg.pbWidth) :
    exec (.pbend (bendValue cur tgt spd n) tgt spd) (bendState cur tgt spd s n) =
      .next (bendState cur tgt spd s (n + 1)) := by
  have hvalue : bendValue cur tgt spd n < 2 ^ s.cfg.pbWidth := bendNext_lt hcur htgt _
  rw [exec_pbend, bendState_cfg, Nat.mod_eq_of_lt hvalue, Nat.mod_eq_of_lt htgt, Nat.mod_eq_of_lt hspd,
    ← bendValue_succ, bendState]

end

/-- Settles O32: the values and the states of the calls are `bendValue` and `bendState`. -/
theorem pitchBendReachesTheTargetInTime : Obligations.PitchBendReachesTheTargetInTime := by
  intro cur tgt spd s hwidth hcur htgt hpos hspd d calls
  have hreach := fun n => bendValue_eq_target_iff (cur := cur) (tgt := tgt) (n := n) hpos
  refine ⟨bendValue cur tgt spd, bendState cur tgt spd s, bendValue_zero, rfl, fun n => ?_⟩
  have hnext : bendValue cur tgt spd (n + 1) < 65536 :=
    (bendNext_lt hcur htgt _).trans_le (Nat.pow_le_pow_right (by decide) hwidth)
  refine ⟨exec_pbend_bendState hcur htgt hspd, hnext, ?_, hreach n, fun hbefore => ?_⟩
  · rw [bendState, advance_out, respond_out, bendAnswer_eq, if_pos hnext]
    simp only [hreach, calls, d]
  · rw [← not_le, ← hreach, bendValue, bendNext_eq_target_iff, not_le, Nat.add_one_mul] at hbefore
    rw [bendValue, bendValue, Nat.add_one_mul]
    exact bendNext_add_of_lt hbefore

end Sys2Proof.Machine
end

section
/-! PROOFS. The DAC (spec/45_dac.md): DACEN (R231), DACDIS (R232) and PLAYBUF (R233). -/

namespace Sys2Proof.Machine

/-! ### PLAYBUF -/

/-- The bytes of one port write: the register to the address location, the value to the data location (R101). -/
theorem PortWriteEvents.busWrites_eq {k : Config} {w : Port × Byte × Byte} {evs : List Event}
    (h : PortWriteEvents k w evs) : busWrites evs = [(addrLoc w.1, w.2.1), (dataLoc w.1, w.2.2)] :=
  WriteEvents.busWrites_eq (ws := [w]) ⟨evs, [], h, rfl, (List.append_nil evs).symm⟩

/-- The waits between the samples write nothing, so a played buffer writes its samples' bytes alone. -/
theorem PlayEvents.busWrites_eq {k : Config} {d : BitVec 16} {xs : List Byte} {evs : List Event}
    (h : PlayEvents k d xs evs) : busWrites evs = xs.flatMap fun x => [(.p0a, k.regDacData), (.p0d, x)] := by
  induction xs generalizing evs with
  | nil => obtain rfl : evs = [] := h; rfl
  | cons x xs ih =>
    obtain ⟨e1, e2, hwrite, hplay, rfl⟩ := h
    rw [busWrites_append, busWrites_append, hwrite.busWrites_eq, ih hplay]
    rfl

/-- Settles O34: `execPlaybuf_spec` names the history, and its bytes are the samples'. -/
theorem playbufWritesEverySample : Obligations.PlaybufWritesEverySample := by
  intro div samples s len
  obtain ⟨evs, hplay, hanswered, hexec⟩ := execPlaybuf_spec div samples s
  refine ⟨evs, hplay, hanswered, ?_, hexec⟩
  rw [hplay.busWrites_eq, List.flatMap_map]
  rfl

/-! ### DACEN and DACDIS -/

/-- A command that is one port write: that write, and `cp` advanced by the packet. -/
theorem finish_portWrite (n : Nat) (p : Port) (r v : Byte) (s : State) : ∃ u,
    AfterWrites s [(p, r, v)] u ∧ finish n (portWrite p r v s) = .next { u with cp := s.cp + n } := by
  refine ⟨_, afterWrites_portWrite p r v s, ?_⟩
  rw [finish, advance, portWrite_cp]

/-- Settles O33. -/
theorem dacSwitchIsOneWrite : Obligations.DacSwitchIsOneWrite := fun s =>
  ⟨finish_portWrite 1 .p0 s.cfg.regDacEn s.cfg.dacEnOn s, finish_portWrite 1 .p0 s.cfg.regDacEn s.cfg.dacEnOff s⟩

end Sys2Proof.Machine
end

section
/-! PROOFS. The timers (spec/46_timer.md): SETTMRA (R246), SETTMRB (R247), TMRSTART (R248) and TMRSTOP (R249). -/

namespace Sys2Proof.Machine

/-- A command that ends with its port writes: those writes, and `cp` advanced by the packet. -/
theorem AfterWrites.finish {s u : State} {ws : List (Port × Byte × Byte)} (h : AfterWrites s ws u) (n : Nat) :
    ∃ v, AfterWrites s ws v ∧ finish n u = .next { v with cp := s.cp + n } := by
  refine ⟨u, h, ?_⟩
  rw [Machine.finish, advance, h.cp_eq]

/-! ### The two parts of timer A's value (R92) -/

theorem fTmrAHi_mask (val : Nat) : fTmrAHi (mask 10 val) = BitVec.ofNat 8 (val % 1024 / 4) := by
  simp only [fTmrAHi_arith, mask_toNat, Nat.reducePow]

/-- The low two bits are below the mask's ten, so the mask leaves them. -/
theorem fTmrALo_mask (val : Nat) : fTmrALo (mask 10 val) = BitVec.ofNat 8 (val % 4) := by
  rw [fTmrALo_arith, mask_toNat, Nat.mod_mod_of_dvd val (by decide : 4 ∣ 2 ^ 10)]

/-! ### The four commands -/

theorem exec_settmra (val : Nat) (s : State) : exec (.settmra val) s =
    finish 3 (portWrite .p0 s.cfg.regTmrALo (BitVec.ofNat 8 (val % 4))
      (portWrite .p0 s.cfg.regTmrAHi (BitVec.ofNat 8 (val % 1024 / 4)) s)) := by
  rw [exec, execSettmra, fTmrAHi_mask, fTmrALo_mask]

/-- Settles O35: SETTMRA is two port writes one after the other, each of the others is one. -/
theorem timerCommandsWriteTheirRegisters : Obligations.TimerCommandsWriteTheirRegisters := by
  intro s
  refine ⟨fun val => ?_, fun val => ?_, fun flags => ?_, ?_⟩
  · rw [exec_settmra]
    exact ((afterWrites_portWrite _ _ _ s).snoc _ _ _).finish 3
  · exact finish_portWrite 2 .p0 s.cfg.regTmrB (BitVec.ofNat 8 val) s
  · exact finish_portWrite 2 .p0 s.cfg.regTmrCtrl (BitVec.ofNat 8 flags) s
  · exact finish_portWrite 1 .p0 s.cfg.regTmrCtrl s.cfg.tmrStopValue s

end Sys2Proof.Machine
end

section
/-! PROOFS. FRAME (spec/47_frame_tick.md R265): one channel's part of it as a whole (what it writes, how it leaves the
channel's entries of the three tables, what it leaves alone), and the six parts one after another. -/

namespace Sys2Proof.Machine

/-! ### Port writes between two states whose tables differ -/

/-- `u` with the three tables of `s`. -/
def State.withTablesOf (u s : State) : State := { u with ch := s.ch, env := s.env, vib := s.vib }

section
variable {s t u v : State} {ws ws' : List (Port × Byte × Byte)}

/-- Port writes do not depend on the tables. -/
theorem AfterWrites.withTablesOf (h : AfterWrites s ws u) (t : State) :
    AfterWrites (s.withTablesOf t) ws (u.withTablesOf t) := by
  obtain ⟨evs, hevs, hanswered, rfl⟩ := h
  exact ⟨evs, hevs, hanswered, rfl⟩

/-- Two rounds of port writes, with the tables written in between. -/
theorem AfterWrites.trans_withTablesOf (h : AfterWrites s ws (t.withTablesOf s))
    (h' : AfterWrites t ws' (v.withTablesOf t)) : AfterWrites s (ws ++ ws') (v.withTablesOf s) :=
  h.trans (h'.withTablesOf s)

end

/-! ### One channel of a frame -/

theorem vibFnum_congr {c : Fin 6} {s t : State} (hvib : t.vibOf c = s.vibOf c) (hcfg : t.cfg = s.cfg) :
    vibFnum c t = vibFnum c s := by
  simp only [vibFnum, hvib, hcfg]

theorem envUpdate_cfg (c : Fin 6) (s : State) : (envUpdate c s).cfg = s.cfg := (kept_cfg s.cfg).envUpdate c s rfl

theorem frameChannel_cfg (c : Fin 6) (s : State) : (frameChannel c s).cfg = s.cfg :=
  (kept_cfg s.cfg).frameChannel c s rfl

theorem frameChannel_of_present {c : Fin 6} {s : State} (h : (s.vibOf c).present = true) :
    frameChannel c s = vibUpdate c (envUpdate c s) := by
  rw [frameChannel, envUpdate_vibOf, if_pos h]

theorem frameChannel_of_absent {c : Fin 6} {s : State} (h : (s.vibOf c).present = false) :
    frameChannel c s = envUpdate c s := by
  simp only [frameChannel, envUpdate_vibOf, h, Bool.false_eq_true, if_false]

/-- The port write of an envelope update: the carrier's total level, if the volume changed (R189). -/
def envUpdateWrites (s : State) (c : Fin 6) : List (Port × Byte × Byte) :=
  if (tickEnv (s.envOf c)).2 then
    [operWrite c (s.chan c).carrier s.cfg.regTl (tickEnv (s.envOf c)).1.current.toNat] else []

/-- The port writes of one channel's part of a frame (R265). -/
def frameWrites (s : State) (c : Fin 6) : List (Port × Byte × Byte) :=
  envUpdateWrites s c ++
    if (s.vibOf c).present then freqWrites s.cfg c (s.vibOf c).baseBlock.toNat (vibFnum c s).toNat else []

theorem afterWrites_envUpdate (c : Fin 6) (s : State) :
    AfterWrites s (envUpdateWrites s c) ((envUpdate c s).withTablesOf s) := by
  obtain ⟨u, hu, hupdate⟩ := envUpdate_spec s c
  have htables : (envUpdate c s).withTablesOf s = u := by
    obtain ⟨evs, -, -, rfl⟩ := hu
    rw [hupdate]
    split <;> rfl
  rwa [htables]

theorem afterWrites_vibUpdate (c : Fin 6) (s : State) :
    AfterWrites s (freqWrites s.cfg c (s.vibOf c).baseBlock.toNat (vibFnum c s).toNat)
      ((vibUpdate c s).withTablesOf s) := by
  obtain ⟨u, hu, hupdate⟩ := vibUpdate_spec s c
  have htables : (vibUpdate c s).withTablesOf s = u := by
    obtain ⟨evs, -, -, rfl⟩ := hu
    rw [hupdate]
    rfl
  rwa [htables]

theorem afterWrites_frameChannel (c : Fin 6) (s : State) :
    AfterWrites s (frameWrites s c) ((frameChannel c s).withTablesOf s) := by
  have henv := afterWrites_envUpdate c s
  cases hpresent : (s.vibOf c).present with
  | false => simpa [frameWrites, hpresent, frameChannel_of_absent hpresent] using henv
  | true =>
    have hvib := afterWrites_vibUpdate c (envUpdate c s)
    rw [envUpdate_cfg, envUpdate_vibOf, vibFnum_congr (envUpdate_vibOf s c c) (envUpdate_cfg c s)] at hvib
    simpa [frameWrites, hpresent, frameChannel_of_present hpresent] using henv.trans_withTablesOf hvib

/-- How one channel's part of a frame leaves its shadow (R265). -/
def frameShadow (s : State) (c : Fin 6) : ChState :=
  let x := if (tickEnv (s.envOf c)).2 then
    (s.chan c).withLevel (s.chan c).carrier (tickEnv (s.envOf c)).1.current else s.chan c
  if (s.vibOf c).present then { x with block := (s.vibOf c).baseBlock, fnum := vibFnum c s } else x

theorem frameChannel_chan (c : Fin 6) (s : State) : (frameChannel c s).chan c = frameShadow s c := by
  have hfnum := vibFnum_congr (envUpdate_vibOf s c c) (envUpdate_cfg c s)
  cases hpresent : (s.vibOf c).present with
  | false => simp [frameShadow, hpresent, frameChannel_of_absent hpresent, envUpdate_chan, ChState.withLevel]
  | true => simp [frameShadow, hpresent, frameChannel_of_present hpresent, vibUpdate_chan, envUpdate_chan,
      envUpdate_vibOf, hfnum, ChState.withLevel]

/-- How one channel's part of a frame leaves its vibrato (R265). -/
def frameVibrato (s : State) (c : Fin 6) : VibState :=
  if (s.vibOf c).present then { s.vibOf c with
    phase := BitVec.ofNat 6 (((s.vibOf c).phase.toNat + (s.vibOf c).speed.toNat) % 64) } else s.vibOf c

theorem frameChannel_vibOf_self (c : Fin 6) (s : State) : (frameChannel c s).vibOf c = frameVibrato s c := by
  simp only [frameChannel_vibOf, true_and, nextPhase_eq_ofNat_mod, frameVibrato]

/-! ### The six parts one after another -/

section
variable {c d : Fin 6} {s t : State} {cs : List (Fin 6)}

/-- What one channel's part of a frame writes depends on that channel's entries and on the parameters alone. -/
theorem SameChannel.frameWrites_eq (h : SameChannel d s t) (hcfg : t.cfg = s.cfg) :
    frameWrites t d = frameWrites s d := by
  obtain ⟨hchan, henv, hvib⟩ := h
  simp only [frameWrites, envUpdateWrites, hchan, henv, hvib, hcfg, vibFnum_congr hvib hcfg]

/-- What one channel's part of a frame makes of that channel's entries depends on them and on the parameters alone. -/
theorem SameChannel.frameChannel (h : SameChannel d s t) (hcfg : t.cfg = s.cfg) :
    SameChannel d (frameChannel d s) (frameChannel d t) := by
  obtain ⟨hchan, henv, hvib⟩ := h
  refine ⟨?_, by simp only [frameChannel_envOf, henv], by simp only [frameChannel_vibOf, hvib]⟩
  simp only [frameChannel_chan, frameShadow, hchan, henv, hvib, vibFnum_congr hvib hcfg]

/-- A channel visited once has the entries its own part of the frame makes of those it had at the start. -/
theorem foldl_frameChannel_of_mem (hnodup : cs.Nodup) (hd : d ∈ cs) (s : State) :
    SameChannel d (frameChannel d s) (cs.foldl (fun t c => frameChannel c t) s) := by
  induction cs generalizing s with
  | nil => exact absurd hd List.not_mem_nil
  | cons c cs ih =>
    obtain ⟨hc, hcs⟩ := List.nodup_cons.mp hnodup
    rcases List.mem_cons.mp hd with rfl | hd
    · exact foldl_frameChannel_of_notMem hc _
    · have hne : c ≠ d := fun h : c = d => hc (h ▸ hd)
      obtain ⟨hchan, henv, hvib⟩ := (frameChannel_of_ne hne s).frameChannel (frameChannel_cfg c s)
      obtain ⟨ihchan, ihenv, ihvib⟩ := ih hcs hd (frameChannel c s)
      exact ⟨ihchan.trans hchan, ihenv.trans henv, ihvib.trans hvib⟩

/-- The writes of channels visited once each are those their entries at the start call for, channel by channel. -/
theorem afterWrites_foldl_frameChannel (hnodup : cs.Nodup) (s : State) :
    AfterWrites s (cs.flatMap (frameWrites s)) ((cs.foldl (fun t c => frameChannel c t) s).withTablesOf s) := by
  induction cs generalizing s with
  | nil => exact .refl s
  | cons c cs ih =>
    obtain ⟨hc, hcs⟩ := List.nodup_cons.mp hnodup
    have hrest : cs.flatMap (frameWrites (frameChannel c s)) = cs.flatMap (frameWrites s) :=
      List.flatMap_congr fun d hd =>
        (frameChannel_of_ne (fun h : c = d => hc (h ▸ hd)) s).frameWrites_eq (frameChannel_cfg c s)
    rw [List.flatMap_cons, List.foldl_cons, ← hrest]
    exact (afterWrites_frameChannel c s).trans_withTablesOf (ih hcs _)

end

/-! ### FRAME -/

theorem vector_eq_ofFn {α : Type} {n : Nat} {v : Vector α n} {f : Fin n → α} (h : ∀ c : Fin n, v[c] = f c) :
    v = Vector.ofFn f := Vector.ofFn_getElem.symm.trans (congrArg Vector.ofFn (funext h))

/-- The state after the six parts of a frame, before `cp` moves. -/
def afterFrame (s : State) : State := frameOrder.foldl (fun t c => frameChannel c t) s

theorem exec_frame (s : State) : exec .frame s = .next (advance 1 (afterFrame s)) := rfl

theorem afterFrame_channel (c : Fin 6) (s : State) : SameChannel c (frameChannel c s) (afterFrame s) :=
  foldl_frameChannel_of_mem (by decide) ((by decide : ∀ c, c ∈ frameOrder) c) s

theorem afterWrites_afterFrame (s : State) :
    AfterWrites s ((List.finRange 6).flatMap (frameWrites s)) ((afterFrame s).withTablesOf s) :=
  afterWrites_foldl_frameChannel (cs := frameOrder) (by decide) s

theorem afterFrame_ch (s : State) : (afterFrame s).ch = Vector.ofFn (frameShadow s) :=
  vector_eq_ofFn fun c => by
    obtain ⟨hchan, -, -⟩ := afterFrame_channel c s
    exact hchan.trans (frameChannel_chan c s)

theorem afterFrame_env (s : State) : (afterFrame s).env = Vector.ofFn fun c => (tickEnv (s.envOf c)).1 :=
  vector_eq_ofFn fun c => by
    obtain ⟨-, henv, -⟩ := afterFrame_channel c s
    exact henv.trans ((frameChannel_envOf s c c).trans (if_pos rfl))

theorem afterFrame_vib (s : State) : (afterFrame s).vib = Vector.ofFn (frameVibrato s) :=
  vector_eq_ofFn fun c => by
    obtain ⟨-, -, hvib⟩ := afterFrame_channel c s
    exact hvib.trans (frameChannel_vibOf_self c s)

/-- FRAME as the state after its port writes and the three tables beside it (R265). -/
theorem exec_frame_tables (s : State) : exec .frame s = .next { (afterFrame s).withTablesOf s with
    cp := s.cp + 1
    ch := Vector.ofFn (frameShadow s)
    env := Vector.ofFn fun c => (tickEnv (s.envOf c)).1
    vib := Vector.ofFn (frameVibrato s) } := by
  have hcp : (afterFrame s).cp = s.cp := foldl_frameChannel_cp frameOrder s
  rw [exec_frame, advance, hcp, ← afterFrame_ch, ← afterFrame_env, ← afterFrame_vib, State.withTablesOf]

/-- Settles O36: the state after the writes is that after the frame, with the tables from before it. -/
theorem frameTicksEveryChannel : Obligations.FrameTicksEveryChannel := by
  intro s
  have hexec := exec_frame_tables s
  have hwrites := afterWrites_afterFrame s
  generalize (afterFrame s).withTablesOf s = u at hexec hwrites
  exact ⟨_, _, fun c => vibFnum c s, u, fun c => tickEnv_spec (s.envOf c), vibFnum_toNat s, hwrites, hexec⟩

/-! ### An idle frame -/

theorem frameChannel_idle {c : Fin 6} {s : State} (henv : (s.envOf c).active = false)
    (hvib : (s.vibOf c).present = false) : frameChannel c s = s := by
  have htick := tickEnv_inactive henv
  have hchanged : envChanged c s = false := by rw [envChanged, htick]
  rw [frameChannel_of_absent hvib, envUpdate_of_unchanged hchanged, envTick, htick, setEnv_self]

/-- Settles O38: every channel's part leaves the state as it is. -/
theorem idleFrameChangesNothing : Obligations.IdleFrameChangesNothing := by
  intro s henv hvib
  have hframe : afterFrame s = s := List.foldl_fixed' (fun c => frameChannel_idle (henv c) (hvib c)) frameOrder
  rw [exec_frame, hframe, advance]

end Sys2Proof.Machine
end

section
/-! PROOFS. FRAME against its list of commands (spec/47_frame_tick.md R265): two states alike but for `cp` and the
responses stay so through an envelope update and a vibrato update. -/

namespace Sys2Proof.Machine

/-! ### States alike but for `cp` and the responses -/

/-- Two states that differ at most in `cp` and `OUT`. -/
def AlikeButForAnswers (s t : State) : Prop :=
  s.ch = t.ch ∧ s.env = t.env ∧ s.vib = t.vib ∧ s.cfg = t.cfg ∧ s.stream = t.stream ∧ SameBus s t

theorem AlikeButForAnswers.refl (s : State) : AlikeButForAnswers s s := ⟨rfl, rfl, rfl, rfl, rfl, .refl s⟩

section
variable {s t : State} {c : Fin 6}

/-- A command's answer and its move of `cp` do not show. -/
theorem AlikeButForAnswers.advance_respond (h : AlikeButForAnswers s t) (n : Nat) (bs : List Byte) :
    AlikeButForAnswers s (advance n (respond bs t)) := h

theorem AlikeButForAnswers.vibOf_eq (h : AlikeButForAnswers s t) (c : Fin 6) : t.vibOf c = s.vibOf c := by
  obtain ⟨-, -, hvib, -⟩ := h
  rw [State.vibOf, State.vibOf, hvib]

theorem AlikeButForAnswers.setEnv (h : AlikeButForAnswers s t) (c : Fin 6) (e : EnvState) :
    AlikeButForAnswers (setEnv c e s) (setEnv c e t) := by
  obtain ⟨hch, henv, hrest⟩ := h
  exact ⟨hch, congrArg (·.set c e) henv, hrest⟩

theorem AlikeButForAnswers.setVib (h : AlikeButForAnswers s t) (c : Fin 6) (v : VibState) :
    AlikeButForAnswers (setVib c v s) (setVib c v t) := by
  obtain ⟨hch, henv, hvib, hrest⟩ := h
  exact ⟨hch, henv, congrArg (·.set c v) hvib, hrest⟩

theorem AlikeButForAnswers.setTotalLevel (h : AlikeButForAnswers s t) (o : Fin 4) (level : BitVec 7) :
    AlikeButForAnswers (setTotalLevel c o level s) (setTotalLevel c o level t) := by
  obtain ⟨hch, henv, hvib, hcfg, hstream, hbus⟩ := h
  refine ⟨?_, ?_, ?_, ?_, ?_, hbus.setTotalLevel hcfg.symm c o level⟩ <;>
    simp only [setTotalLevel_ch, setTotalLevel_env, setTotalLevel_vib, setTotalLevel_cfg, setTotalLevel_stream,
      State.chan, hch, henv, hvib, hcfg, hstream]

theorem AlikeButForAnswers.setFrequency (h : AlikeButForAnswers s t) (block : BitVec 3) (fnum : BitVec 11) :
    AlikeButForAnswers (setFrequency c block fnum s) (setFrequency c block fnum t) := by
  obtain ⟨hch, henv, hvib, hcfg, hstream, hbus⟩ := h
  refine ⟨?_, ?_, ?_, ?_, ?_, hbus.setFrequency hcfg.symm c block fnum⟩ <;>
    simp only [setFrequency_ch, setFrequency_env, setFrequency_vib, setFrequency_cfg, setFrequency_stream,
      State.chan, hch, henv, hvib, hcfg, hstream]

theorem AlikeButForAnswers.envUpdate (h : AlikeButForAnswers s t) :
    AlikeButForAnswers (envUpdate c s) (envUpdate c t) := by
  have ⟨hch, henv, _⟩ := h
  have henvOf : t.envOf c = s.envOf c := by rw [State.envOf, State.envOf, henv]
  have hchan : t.chan c = s.chan c := by rw [State.chan, State.chan, hch]
  have hchanged : envChanged c t = envChanged c s := by rw [envChanged, envChanged, henvOf]
  have htick : AlikeButForAnswers (envTick c s) (envTick c t) := by
    rw [envTick, envTick, henvOf]
    exact h.setEnv c _
  cases hc : envChanged c s with
  | false => rwa [envUpdate_of_unchanged hc, envUpdate_of_unchanged (hchanged.trans hc)]
  | true =>
    rw [envUpdate_of_changed hc, envUpdate_of_changed (hchanged.trans hc), hchan, envTick_envOf, envTick_envOf, henvOf]
    exact htick.setTotalLevel _ _

theorem AlikeButForAnswers.vibUpdate (h : AlikeButForAnswers s t) :
    AlikeButForAnswers (vibUpdate c s) (vibUpdate c t) := by
  have ⟨_, _, _, hcfg, _⟩ := h
  have hvibOf := h.vibOf_eq c
  rw [Machine.vibUpdate, Machine.vibUpdate, vibTick, vibTick, hvibOf, vibFnum_congr hvibOf hcfg.symm]
  exact (h.setVib c _).setFrequency _ _

end

/-! ### The commands of one channel -/

/-- The commands that one channel's part of a frame stands for (R265). -/
def channelCommands (s : State) (c : Fin 6) : List Instr :=
  .envupd c.val :: if (s.vibOf c).present then [.vibupd c.val] else []

theorem frameCommands_eq (s : State) : frameCommands s = frameOrder.flatMap (channelCommands s) := rfl

/-- No part of a frame sets up or clears a vibrato. -/
theorem frameChannel_present (c d : Fin 6) (s : State) :
    ((frameChannel c s).vibOf d).present = (s.vibOf d).present := by
  rw [frameChannel_vibOf]
  split
  next h =>
    obtain ⟨rfl, -⟩ := h
    rfl
  next => rfl

theorem channelCommands_frameChannel (c : Fin 6) (s : State) :
    channelCommands (frameChannel c s) = channelCommands s := by
  funext d
  rw [channelCommands, channelCommands, frameChannel_present]

section
variable {s t : State}

/-- One channel's part of a frame against its commands, whatever commands follow. -/
theorem AlikeButForAnswers.execAll_channelCommands (h : AlikeButForAnswers s t) (c : Fin 6) (is : List Instr) :
    ∃ u, execAll (channelCommands s c ++ is) t = execAll is u ∧ AlikeButForAnswers (frameChannel c s) u := by
  have henv := (h.envUpdate (c := c)).advance_respond 2 [boolByte (envChanged c t)]
  have hupd := exec_envupd c t
  cases hpresent : (s.vibOf c).present with
  | false =>
    rw [channelCommands, hpresent, frameChannel_of_absent hpresent]
    exact ⟨_, execAll_cons_of_next hupd is, henv⟩
  | true =>
    rw [channelCommands, hpresent, frameChannel_of_present hpresent]
    have hpresent' := (congrArg VibState.present ((henv.vibOf_eq c).trans (envUpdate_vibOf s c c))).trans hpresent
    exact ⟨_, (execAll_cons_of_next hupd _).trans (execAll_cons_of_next (exec_vibupd hpresent') is),
      henv.vibUpdate.advance_respond 2 _⟩

theorem AlikeButForAnswers.execAll_flatMap_channelCommands (h : AlikeButForAnswers s t) (cs : List (Fin 6)) :
    ∃ u, execAll (cs.flatMap (channelCommands s)) t = .next u ∧
      AlikeButForAnswers (cs.foldl (fun t c => frameChannel c t) s) u := by
  induction cs generalizing s t with
  | nil => exact ⟨t, rfl, h⟩
  | cons c cs ih =>
    obtain ⟨u, hu, halike⟩ := h.execAll_channelCommands c (cs.flatMap (channelCommands s))
    obtain ⟨v, hv, hend⟩ := ih halike
    rw [channelCommands_frameChannel] at hv
    exact ⟨v, hu.trans hv, hend⟩

end

theorem afterFrame_out (s : State) : (afterFrame s).out = s.out := foldl_frameChannel_out frameOrder s

theorem execAll_frameCommands (s : State) :
    ∃ v, execAll (frameCommands s) s = .next v ∧ AlikeButForAnswers (afterFrame s) v := by
  rw [frameCommands_eq, afterFrame]
  exact (AlikeButForAnswers.refl s).execAll_flatMap_channelCommands frameOrder

/-- Settles O37: the commands of each channel do what its part of the frame does, but for `cp` and the responses. -/
theorem frameEqualsItsCommands : Obligations.FrameEqualsItsCommands := by
  intro s
  obtain ⟨v, hv, halike⟩ := execAll_frameCommands s
  have hframe := exec_frame s
  have hout := afterFrame_out s
  generalize afterFrame s = u at hframe hout halike
  exact ⟨advance 1 u, v, hframe, hv, hout, halike⟩

end Sys2Proof.Machine
end

section
/-! PROOFS. Completion and refusals (spec/60_exceptions.md R280, R284, R286, R287): one case split over the commands says
that each either runs to its end, with every operand legal, or is refused for a row of R286's table
(`exec_completesOrRefused`). -/

namespace Sys2Proof.Machine

/-! ### R286's table -/

/-- The command has no channel operand, or a legal one. -/
def ChannelInRange (i : Instr) : Prop := ∀ ch, channelOperand i = some ch → ch < 6

/-- R286's table, one constructor per reason: when command `i` is refused in state `s`, and for what. Every reason of a
later operand or of the state asks for a legal channel (R284). -/
inductive RefusedFor (i : Instr) (s : State) : Refusal → Prop
  | badPort {port reg val : Nat} (hi : i = .write port reg val) (h : 2 ≤ port) : RefusedFor i s (.badPort s.cp)
  | badChannel {ch : Nat} (hi : channelOperand i = some ch) (h : 6 ≤ ch) : RefusedFor i s (.badChannel s.cp)
  | badOperator {ch op tl : Nat} (hrange : ChannelInRange i)
      (hi : i = .regofs op ∨ i = .opmap ch op ∨ i = .settl ch op tl ∨ i = .setcarrier ch op) (h : 4 ≤ op) :
      RefusedFor i s (.badOperator s.cp)
  | badEnvSpeed {ch target speed : Nat} (hrange : ChannelInRange i)
      (hi : i = .envattack ch target speed ∨ i = .envrelease ch speed)
      (h : speed = 0 ∨ 2 ^ s.cfg.envSpeedWidth ≤ speed) : RefusedFor i s (.badEnvSpeed s.cp)
  | badVibSpeed {ch block fnum depth speed : Nat} (hrange : ChannelInRange i)
      (hi : i = .vibset ch block fnum depth speed) (h : speed = 0 ∨ 8 < speed) : RefusedFor i s (.badVibSpeed s.cp)
  | vibAbsent {c : Fin 6} (hrange : ChannelInRange i) (hi : i = .vibtick c ∨ i = .vibupd c)
      (h : (s.vibOf c).present = false) : RefusedFor i s (.vibAbsent s.cp)

theorem channelInRange_of_lt {i : Instr} {ch : Nat} (hi : channelOperand i = some ch) (h : ch < 6) :
    ChannelInRange i := fun _ hd => Option.some.inj (hi.symm.trans hd) ▸ h

/-- The legality check covers the channel operand of every command that has one (R73). -/
theorem channelInRange_of_legal {i : Instr} {w : Nat} (h : i.legal w = true) : ChannelInRange i := by
  intro ch hch
  cases i <;> simp_all [Instr.legal, channelOperand, channelLegal]

/-- No command with legal operands and the vibrato it needs is in R286's table. -/
theorem RefusedFor.not_legal_and_ready {i : Instr} {s : State} {r : Refusal} (h : RefusedFor i s r) :
    ¬(i.legal s.cfg.envSpeedWidth = true ∧ Ready i s) := by
  rintro ⟨hlegal, hready⟩
  cases h with
  | badPort hi h =>
    subst hi
    exact absurd (of_decide_eq_true hlegal) (Nat.not_lt.mpr h)
  | badChannel hi h => exact absurd (channelInRange_of_legal hlegal _ hi) (Nat.not_lt.mpr h)
  | badOperator _ hi h =>
    rcases hi with rfl | rfl | rfl | rfl <;> simp [Instr.legal, operatorLegal, Nat.not_lt.mpr h] at hlegal
  | badEnvSpeed _ hi h =>
    rcases hi with rfl | rfl <;>
      simp only [Instr.legal, envSpeedLegal, Bool.and_eq_true, decide_eq_true_eq] at hlegal <;> omega
  | badVibSpeed _ hi h =>
    subst hi
    simp only [Instr.legal, vibSpeedLegal, Bool.and_eq_true, decide_eq_true_eq] at hlegal
    omega
  | vibAbsent _ hi h => rcases hi with rfl | rfl <;> exact absurd ((hready _ rfl).symm.trans h) (by simp)

/-! ### A command runs to its end or is in the table -/

/-- The answer `r` is a next state, and command `i` legal and ready in `s`; or it is a refusal for a row of the table. -/
def CompletesOrRefused (i : Instr) (s : State) (r : Result) : Prop :=
  (i.legal s.cfg.envSpeedWidth = true ∧ Ready i s ∧ ∃ t, r = .next t) ∨ ∃ e, RefusedFor i s e ∧ r = .refused e

section
variable {i : Instr} {s : State}

theorem CompletesOrRefused.finish {n : Nat} {u : State} (hlegal : i.legal s.cfg.envSpeedWidth = true)
    (hready : Ready i s := by exact trivial) : CompletesOrRefused i s (finish n u) := .inl ⟨hlegal, hready, _, rfl⟩

theorem CompletesOrRefused.withPort {port : Nat} {k : Port → Result}
    (hbad : 2 ≤ port → RefusedFor i s (.badPort s.cp)) (h : port < 2 → ∀ p, CompletesOrRefused i s (k p)) :
    CompletesOrRefused i s (withPort port s k) := by
  match port with
  | 0 => exact h (by decide) .p0
  | 1 => exact h (by decide) .p1
  | n + 2 => exact .inr ⟨_, hbad (by omega), withPort_ge (by omega) s k⟩

theorem CompletesOrRefused.withChannel {ch : Nat} {k : Fin 6 → Result} (hi : channelOperand i = some ch)
    (h : ∀ hch : ch < 6, CompletesOrRefused i s (k ⟨ch, hch⟩)) : CompletesOrRefused i s (withChannel ch s k) := by
  rcases Nat.lt_or_ge ch 6 with hch | hch
  · rw [withChannel_fin ⟨ch, hch⟩]
    exact h hch
  · exact .inr ⟨_, .badChannel hi hch, withChannel_ge hch s k⟩

theorem CompletesOrRefused.withOperator {op : Nat} {k : Fin 4 → Result}
    (hbad : 4 ≤ op → RefusedFor i s (.badOperator s.cp)) (h : ∀ hop : op < 4, CompletesOrRefused i s (k ⟨op, hop⟩)) :
    CompletesOrRefused i s (withOperator op s k) := by
  rcases Nat.lt_or_ge op 4 with hop | hop
  · rw [withOperator_fin ⟨op, hop⟩]
    exact h hop
  · exact .inr ⟨_, hbad hop, withOperator_ge hop s k⟩

theorem CompletesOrRefused.withEnvSpeed {speed : Nat} {k : Nat → Result}
    (hbad : speed = 0 ∨ 2 ^ s.cfg.envSpeedWidth ≤ speed → RefusedFor i s (.badEnvSpeed s.cp))
    (h : 1 ≤ speed ∧ speed < 2 ^ s.cfg.envSpeedWidth → CompletesOrRefused i s (k speed)) :
    CompletesOrRefused i s (withEnvSpeed speed s k) := by
  by_cases hspeed : 1 ≤ speed ∧ speed < 2 ^ s.cfg.envSpeedWidth
  · rw [withEnvSpeed_legal hspeed]
    exact h hspeed
  · exact .inr ⟨_, hbad (by omega), withEnvSpeed_illegal hspeed k⟩

theorem CompletesOrRefused.withVibSpeed {speed : Nat} {k : BitVec 4 → Result}
    (hbad : speed = 0 ∨ 8 < speed → RefusedFor i s (.badVibSpeed s.cp))
    (h : 1 ≤ speed ∧ speed ≤ 8 → CompletesOrRefused i s (k (BitVec.ofNat 4 speed))) :
    CompletesOrRefused i s (withVibSpeed speed s k) := by
  by_cases hspeed : 1 ≤ speed ∧ speed ≤ 8
  · rw [withVibSpeed_legal hspeed]
    exact h hspeed
  · exact .inr ⟨_, hbad (by omega), withVibSpeed_illegal hspeed s k⟩

theorem CompletesOrRefused.withVibrato {c : Fin 6} {k : Result}
    (hbad : (s.vibOf c).present = false → RefusedFor i s (.vibAbsent s.cp))
    (h : (s.vibOf c).present = true → CompletesOrRefused i s k) : CompletesOrRefused i s (withVibrato c s k) := by
  cases hpresent : (s.vibOf c).present with
  | true =>
    rw [withVibrato_present hpresent]
    exact h hpresent
  | false => exact .inr ⟨_, hbad hpresent, withVibrato_absent hpresent k⟩

end

theorem channelLegal_and_operatorLegal {ch op : Nat} (hch : ch < 6) (hop : op < 4) :
    (channelLegal ch && operatorLegal op) = true :=
  Bool.and_eq_true_iff.mpr ⟨decide_eq_true hch, decide_eq_true hop⟩

/-- R280, R284, R286: the checks of every command, in packet order, the vibrato's last. -/
theorem exec_completesOrRefused (i : Instr) (s : State) : CompletesOrRefused i s (exec i s) := by
  unfold exec
  cases i with
  | write port reg val => exact .withPort (.badPort rfl) fun hport p => .finish (decide_eq_true hport)
  | busyq => exact .finish rfl
  | regofs op =>
    exact .withOperator (.badOperator (ch := 0) (tl := 0) nofun (.inl rfl)) fun hop => .finish (decide_eq_true hop)
  | chroute ch => exact .withChannel rfl fun hch => .finish (decide_eq_true hch)
  | opmap ch op =>
    exact .withChannel rfl fun hch =>
      .withOperator (.badOperator (tl := 0) (channelInRange_of_lt rfl hch) (.inr (.inl rfl))) fun hop =>
        .finish (channelLegal_and_operatorLegal hch hop)
  | setalg ch alg fb => exact .withChannel rfl fun hch => .finish (decide_eq_true hch)
  | setpan ch left right ams pms => exact .withChannel rfl fun hch => .finish (decide_eq_true hch)
  | setfreq ch block fnum => exact .withChannel rfl fun hch => .finish (decide_eq_true hch)
  | keyon ch mask => exact .withChannel rfl fun hch => .finish (decide_eq_true hch)
  | keyoff ch mask => exact .withChannel rfl fun hch => .finish (decide_eq_true hch)
  | loadpatch ch patch => exact .withChannel rfl fun hch => .finish (decide_eq_true hch)
  | settl ch op tl =>
    exact .withChannel rfl fun hch =>
      .withOperator (.badOperator (channelInRange_of_lt rfl hch) (.inr (.inr (.inl rfl)))) fun hop =>
        .finish (channelLegal_and_operatorLegal hch hop)
  | setcarrier ch op =>
    exact .withChannel rfl fun hch =>
      .withOperator (.badOperator (tl := 0) (channelInRange_of_lt rfl hch) (.inr (.inr (.inr rfl)))) fun hop =>
        .finish (channelLegal_and_operatorLegal hch hop)
  | getfreq ch => exact .withChannel rfl fun hch => .finish (decide_eq_true hch)
  | getvol ch => exact .withChannel rfl fun hch => .finish (decide_eq_true hch)
  | getpatch ch => exact .withChannel rfl fun hch => .finish (decide_eq_true hch)
  | envattack ch target speed =>
    exact .withChannel rfl fun hch =>
      .withEnvSpeed (.badEnvSpeed (channelInRange_of_lt rfl hch) (.inl rfl)) fun hspeed =>
        .finish (by simp [Instr.legal, channelLegal, envSpeedLegal, hch, hspeed])
  | envrelease ch speed =>
    exact .withChannel rfl fun hch =>
      .withEnvSpeed (.badEnvSpeed (target := 0) (channelInRange_of_lt rfl hch) (.inr rfl)) fun hspeed =>
        .finish (by simp [Instr.legal, channelLegal, envSpeedLegal, hch, hspeed])
  | envtick ch => exact .withChannel rfl fun hch => .finish (decide_eq_true hch)
  | envreset ch => exact .withChannel rfl fun hch => .finish (decide_eq_true hch)
  | envupd ch => exact .withChannel rfl fun hch => .finish (decide_eq_true hch)
  | vibset ch block fnum depth speed =>
    exact .withChannel rfl fun hch =>
      .withVibSpeed (.badVibSpeed (channelInRange_of_lt rfl hch) rfl) fun hspeed =>
        .finish (by simp [Instr.legal, channelLegal, vibSpeedLegal, hch, hspeed])
  | vibclr ch => exact .withChannel rfl fun hch => .finish (decide_eq_true hch)
  | vibtick ch =>
    exact .withChannel rfl fun hch =>
      .withVibrato (.vibAbsent (channelInRange_of_lt rfl hch) (.inl rfl)) fun hpresent =>
        .finish (decide_eq_true hch) fun _ hc => Fin.ext (b := ⟨ch, hch⟩) hc ▸ hpresent
  | vibupd ch =>
    exact .withChannel rfl fun hch =>
      .withVibrato (.vibAbsent (channelInRange_of_lt rfl hch) (.inr rfl)) fun hpresent =>
        .finish (decide_eq_true hch) fun _ hc => Fin.ext (b := ⟨ch, hch⟩) hc ▸ hpresent
  | pbend cur tgt spd => exact .finish rfl
  | dacen => exact .finish rfl
  | dacdis => exact .finish rfl
  | playbuf div samples => exact .finish rfl
  | settmra val => exact .finish rfl
  | settmrb val => exact .finish rfl
  | tmrstart flags => exact .finish rfl
  | tmrstop => exact .finish rfl
  | tmraovf => exact .finish rfl
  | tmrbovf => exact .finish rfl
  | frame => exact .finish rfl

/-- Settles O39: a command that is not in R286's table is legal, ready and has a next state, one in it is refused. -/
theorem commandsCompleteExactlyWhenLegal : Obligations.CommandsCompleteExactlyWhenLegal := by
  intro i s
  rcases exec_completesOrRefused i s with ⟨hlegal, hready, hnext⟩ | ⟨e, hrefused, hexec⟩
  · exact iff_of_true hnext ⟨hlegal, hready⟩
  · exact iff_of_false (by simp [hexec]) hrefused.not_legal_and_ready

/-- Settles O40: the reason a command is refused for is a row of R286's table. -/
theorem refusalsNameTheFirstIllegalOperand : Obligations.RefusalsNameTheFirstIllegalOperand := by
  intro i s r h
  rcases exec_completesOrRefused i s with ⟨-, -, t, hnext⟩ | ⟨e, hrefused, hexec⟩
  · exact nomatch h.symm.trans hnext
  obtain rfl : r = e := by simpa [h] using hexec
  cases hrefused with
  | badPort hi hport => exact .inl ⟨_, _, _, hi, hport, rfl⟩
  | badChannel hi hch => exact .inr (.inl ⟨_, hi, hch, rfl⟩)
  | badOperator hrange hi hop => exact .inr (.inr ⟨hrange, .inl ⟨⟨_, _, _, hop, hi⟩, rfl⟩⟩)
  | badEnvSpeed hrange hi hspeed => exact .inr (.inr ⟨hrange, .inr (.inl ⟨⟨_, _, _, hspeed, hi⟩, rfl⟩)⟩)
  | badVibSpeed hrange hi hspeed =>
    exact .inr (.inr ⟨hrange, .inr (.inr (.inl ⟨⟨_, _, _, _, _, hspeed, hi⟩, rfl⟩))⟩)
  | vibAbsent hrange hi habsent => exact .inr (.inr ⟨hrange, .inr (.inr (.inr ⟨⟨_, habsent, hi⟩, rfl⟩))⟩)

end Sys2Proof.Machine
end

section
/-! PROOFS. The commands without bus access (spec/41_operator_addressing.md, 42, 43, 44): each writes tables, responses and
`cp` alone, so the bus side of its next state is that of the state before. -/

namespace Sys2Proof.Machine

theorem exec_sameBus_of_busFree {i : Instr} (h : busFree i = true) (s : State) : Ends (SameBus s) (exec i s) := by
  unfold exec
  cases i with
  | regofs op => exact .withOperator fun o _ => .finish (.refl s)
  | chroute ch => exact .withChannel fun c _ => .finish (.refl s)
  | opmap ch op => exact .withChannel fun c _ => .withOperator fun o _ => .finish (.refl s)
  | setcarrier ch op => exact .withChannel fun c _ => .withOperator fun o _ => .finish (.refl s)
  | getfreq ch => exact .withChannel fun c _ => .finish (.refl s)
  | getvol ch => exact .withChannel fun c _ => .finish (.refl s)
  | getpatch ch => exact .withChannel fun c _ => .finish (.refl s)
  | envattack ch target speed => exact .withChannel fun c _ => .withEnvSpeed fun _ _ => .finish (.refl s)
  | envrelease ch speed => exact .withChannel fun c _ => .withEnvSpeed fun _ _ => .finish (.refl s)
  | envtick ch => exact .withChannel fun c _ => .finish (.refl s)
  | envreset ch => exact .withChannel fun c _ => .finish (.refl s)
  | vibset ch block fnum depth speed => exact .withChannel fun c _ => .withVibSpeed fun _ _ => .finish (.refl s)
  | vibclr ch => exact .withChannel fun c _ => .finish (.refl s)
  | vibtick ch => exact .withChannel fun c _ => .withVibrato fun _ => .finish (.refl s)
  | pbend cur tgt spd => exact .finish (.refl s)
  | _ => exact nomatch h

/-- Settles O48: no such command reaches a port write or a status read. -/
theorem busFreeCommandsMakeNoAccess : Obligations.BusFreeCommandsMakeNoAccess :=
  fun _ s t hfree h => exec_sameBus_of_busFree hfree s t h

end Sys2Proof.Machine
end

section
/-! PROOFS. The state after reset (spec/70_reset_and_hazards.md R300 to R304) and the invariant there. -/

namespace Sys2Proof.Machine

/-! ### The values of reset -/

section
variable (k : Config) (c : Fin 6)

@[simp] theorem resetWith_chan : (State.resetWith k).chan c = k.resetCh := by simp [State.chan, State.resetWith]
@[simp] theorem resetWith_envOf : (State.resetWith k).envOf c = k.resetEnv := by simp [State.envOf, State.resetWith]
@[simp] theorem resetWith_vibOf : (State.resetWith k).vibOf c = k.resetVib := by simp [State.vibOf, State.resetWith]

end

/-- Settles O58: every entry of a table is its reset record, and the defaults of the records are R301 to R303's. -/
theorem resetHoldsTheSpecsValues : Obligations.ResetHoldsTheSpecsValues :=
  ⟨fun c => resetWith_chan defaultConfig c, fun c => resetWith_envOf defaultConfig c,
    fun c => resetWith_vibOf defaultConfig c, rfl,
    fun k => ⟨rfl, fun c => ⟨resetWith_chan k c, resetWith_envOf k c, resetWith_vibOf k c⟩, rfl, rfl, rfl, rfl⟩⟩

/-! ### The invariant at reset -/

theorem defaultConfig_wf : defaultConfig.wf = true := by decide

section
variable {k : Config} (h : k.wf = true)
include h

theorem resetEnv_inv : k.resetEnv.Inv k := by
  simp only [Config.wf, Config.resetEnvWf, Bool.and_eq_true, Bool.or_eq_true, decide_eq_true_eq, beq_iff_eq] at h
  obtain ⟨⟨-, ⟨⟨hpos, hwidth⟩, hcounter⟩, htarget⟩, -⟩ := h
  exact ⟨hpos, hwidth, hcounter, fun hoff => ⟨htarget.resolve_left (by simp [hoff]), .inr rfl⟩⟩

theorem resetVib_inv : k.resetVib.Inv k := by
  simp only [Config.wf, Config.resetVibWf, Bool.and_eq_true, decide_eq_true_eq] at h
  obtain ⟨-, hpos, hmax⟩ := h
  exact ⟨hpos, hmax, fun _ => .inl rfl⟩

theorem resetWith_inv : (State.resetWith k).Inv where
  cfg := h
  cp := le_rfl
  env c := (resetWith_envOf k c).symm ▸ resetEnv_inv h
  vib c := (resetWith_vibOf k c).symm ▸ resetVib_inv h
  capx := rfl
  reads := rfl

end

/-- Settles O59: the reset records meet their bounds (R9), and the tables hold nothing else. -/
theorem resetMeetsTheInvariant : Obligations.ResetMeetsTheInvariant :=
  ⟨resetWith_inv defaultConfig_wf, fun _ hk => resetWith_inv hk⟩

end Sys2Proof.Machine
end
